-- ==== Sys2Proof/Word.lean ====
section
/-!
DEFINITION. The plain types of the MMG-PPU model: bytes, bus words, colours, the four-entry table, the raster mode,
and what the environment can present to the block.
-/

namespace Sys2Proof

/-- A byte: an integer 0 to 255 (R7). -/
abbrev Byte := BitVec 8

/-- A 16-bit register address on the bus (R61). -/
abbrev Addr := BitVec 16

/-- The bus transaction word `rw[24] ++ addr[23:8] ++ data[7:0]` (R61). -/
abbrev BusWord := BitVec 25

/-- A shade, or a raw colour index: a 2-bit value 0 to 3 (R18, R68). -/
abbrev Shade := BitVec 2

/-- The displayable colour, the default type of R5: a 32-bit word. -/
abbrev Colour := BitVec 32

/-- A table of four entries 0 to 3: a palette (R18) or the shade table (R19). -/
structure Quad (α : Type) where
  e0 : α
  e1 : α
  e2 : α
  e3 : α
deriving DecidableEq, Repr

/-- The raster mode (R16): 0 H-blank, 1 V-blank, 2 OAM-search, 3 pixel-transfer. -/
inductive Mode where
  | hblank
  | vblank
  | oamSearch
  | pixelTransfer
deriving DecidableEq, Repr

/-- One operation as it is presented to the block: a word on the bus (R61), or the tick, which is not a bus word and has
its two inputs (R80). -/
inductive Operation where
  | bus (word : BusWord)
  | tick (cycles : Nat) (closeReq : Bool)
deriving DecidableEq, Repr

/-- What the environment may do (R208): present an operation, or change one byte of the memory that the block reads
(the line `MEM[<addr>] = <byte>` of R79) between two operations. -/
inductive Input where
  | operation (op : Operation)
  | memory (addr : Nat) (data : Byte)
deriving DecidableEq, Repr

end Sys2Proof
end

