-- ==== Sys2Proof/Config.lean ====
section
/-!
DEFINITION. The record `reg` of the block's registers (R11), the configuration record `Cfg` (R5), whose field `reset` is a
value of it, and the one free value of the spec: what a framebuffer pixel holds before the block has written it.
-/

namespace Sys2Proof

/-- The record `reg`: exactly the fields of R11's table, in its order. -/
structure Regs where
  bgEnabled : Bool
  spritesEnabled : Bool
  /-- false: sprites 8×8; true: sprites 8×16. -/
  spriteSize : Bool
  tilemapSelect : Bool
  bgTiledataSelect : Bool
  windowEnabled : Bool
  windowTilemapSelect : Bool
  /-- Stored, read by no rule (R15). -/
  lcdEnabled : Bool
  lyInt : Bool
  oamInt : Bool
  vblankInt : Bool
  hblankInt : Bool
  scrollX : Byte
  scrollY : Byte
  /-- Stored, read by no rule (R13). -/
  windowX : Byte
  windowY : Byte
  lineCompare : Byte
  bgPalette : Quad Shade
  objPalette1 : Quad Shade
  objPalette2 : Quad Shade
  /-- The line of the latest tick that was not stopped, 0 to 153 (R17). -/
  currentLine : Byte
  /-- The mode of the latest tick that was not stopped (R17). -/
  lcdMode : Mode
  /-- The line of the tick before, for edge detection (R22 a). -/
  prevLine : Byte
  /-- The mode of the tick before, for edge detection (R22 a). -/
  prevMode : Mode
deriving DecidableEq, Repr

/-- `Cfg.REG_ADDR`: the bus address of each of the eleven registers (R5, D3). -/
structure RegAddr where
  lcdc : Addr
  stat : Addr
  scy : Addr
  scx : Addr
  ly : Addr
  lyc : Addr
  bgp : Addr
  obp0 : Addr
  obp1 : Addr
  wy : Addr
  wx : Addr
deriving DecidableEq, Repr

/-- The configuration record of R5. `CycleDomain` is the type Nat and `Colour` the type `Colour`. -/
structure Cfg where
  regAddr : RegAddr
  mapBase0 : Nat
  mapBase1 : Nat
  tileBaseUnsigned : Nat
  tileBaseSigned : Nat
  spriteTileBase : Nat
  oamBase : Nat
  oamEntryBytes : Nat
  spriteXOffset : Nat
  /-- The fixed shade table (R19). -/
  shadeRgb : Quad Colour
  /-- The framebuffer's row length and row count; the block itself uses only the leftmost 160×144 region (R47). -/
  fbStride : Nat
  fbRows : Nat
  /-- The reset record, one value per register field (R24, R220). -/
  reset : Regs
  /-- Whether the background-disabled branch ends the line's background pass (R152). -/
  bgDisabledAbort : Bool
  /-- Whether a false `sprites_enabled` suppresses the sprite pass (R170). -/
  spritesEnableGates : Bool
deriving DecidableEq, Repr

/-- FREE VALUE (R24, U4; DESIGN CHOICE, safe; log entry 2): the colour a framebuffer pixel holds after
reset, until the block writes it. The spec: unspecified, any `Colour`; it has no body, so nothing can be proved of its value. -/
opaque Config.fbAtReset (row col : Nat) : Colour

end Sys2Proof
end

