-- ==== Sys2Proof/Machine/Defaults.lean ====
section
/-!
DEFINITION. The default values of R5's parameters (D3, D7 to D12, D17, D18) and of the reset record (R24), and the constants
the source states.
-/

namespace Sys2Proof

/-- `REG_ADDR`'s default (R5, R61, D3). -/
def regAddrDefault : RegAddr where
  lcdc := 0xFF40
  stat := 0xFF41
  scy := 0xFF42
  scx := 0xFF43
  ly := 0xFF44
  lyc := 0xFF45
  bgp := 0xFF47
  obp0 := 0xFF48
  obp1 := 0xFF49
  wy := 0xFF4A
  wx := 0xFF4B

/-- A palette with every entry 0 (R24). -/
def paletteZero : Quad Shade := ⟨0, 0, 0, 0⟩

/-- `RESET`'s default: every field 0 or false (R24, D12; DESIGN CHOICE, unsafe; log entry 3). -/
def regsZero : Regs where
  bgEnabled := false
  spritesEnabled := false
  spriteSize := false
  tilemapSelect := false
  bgTiledataSelect := false
  windowEnabled := false
  windowTilemapSelect := false
  lcdEnabled := false
  lyInt := false
  oamInt := false
  vblankInt := false
  hblankInt := false
  scrollX := 0
  scrollY := 0
  windowX := 0
  windowY := 0
  lineCompare := 0
  bgPalette := paletteZero
  objPalette1 := paletteZero
  objPalette2 := paletteZero
  currentLine := 0
  lcdMode := .hblank
  prevLine := 0
  prevMode := .hblank

/-- The configuration with every parameter at its default (R5; DESIGN CHOICE, unsafe for reset; log entry 1). -/
def cfgDefault : Cfg where
  regAddr := regAddrDefault
  mapBase0 := 0x9800
  mapBase1 := 0x9C00
  tileBaseUnsigned := 0x8000
  tileBaseSigned := 0x9000
  spriteTileBase := 0x8000
  oamBase := 0xFE00
  oamEntryBytes := 4
  spriteXOffset := 8
  shadeRgb := ⟨0xFFFFFF, 0xAAAAAA, 0x555555, 0x000000⟩
  fbStride := 160
  fbRows := 144
  reset := regsZero
  bgDisabledAbort := true
  spritesEnableGates := true

/-- `UNITS_PER_LINE` (R5). -/
def unitsPerLine : Nat := 114

/-- `LINES_PER_FRAME` (R5). -/
def linesPerFrame : Nat := 154

/-- `UNITS_PER_FRAME` (R5). -/
def unitsPerFrame : Nat := 17556

/-- `VISIBLE_LINES` (R5). -/
def visibleLines : Nat := 144

/-- `VISIBLE_WIDTH` (R5). -/
def visibleWidth : Nat := 160

/-- `MODE2_END` (R5). -/
def mode2End : Nat := 20

/-- `MODE3_END` (R5). -/
def mode3End : Nat := 63

/-- `OAM_SLOTS` (R5). -/
def oamSlots : Nat := 40

/-- `MAX_SPRITES_PER_LINE` (R5). -/
def maxSpritesPerLine : Nat := 10

/-- `SPRITE_Y_OFFSET` (R5). -/
def spriteYOffset : Nat := 16

/-- `TILE_BYTES` (R5). -/
def tileBytes : Nat := 16

/-- `MAP_WIDTH_TILES` (R5). -/
def mapWidthTiles : Nat := 32

end Sys2Proof
end

