-- ==== Sys2Proof/Syntax.lean ====
section
/-!
DEFINITION. The operation set (R60): one constructor for each row of spec/opcode_table.json, in the table's order.
-/

namespace Sys2Proof

/-- The 14 operations of the block. A register write carries its data byte, a read carries nothing (its data bits are
ignored, R61), the tick carries its two inputs (R110). -/
inductive Instr where
  /-- write-control, R90. -/
  | wrLcdc (data : Byte)
  /-- write-status, R91. -/
  | wrStat (data : Byte)
  /-- write-scroll-y, R93. -/
  | wrScy (data : Byte)
  /-- write-scroll-x, R92. -/
  | wrScx (data : Byte)
  /-- write-line-compare, R96. -/
  | wrLyc (data : Byte)
  /-- write-bg-palette, R97. -/
  | wrBgp (data : Byte)
  /-- write-sprite-palette-1, R98. -/
  | wrObp0 (data : Byte)
  /-- write-sprite-palette-2, R99. -/
  | wrObp1 (data : Byte)
  /-- write-window-y, R95. -/
  | wrWy (data : Byte)
  /-- write-window-x, R94. -/
  | wrWx (data : Byte)
  /-- read-status, R101. -/
  | rdStat
  /-- read-line, R102. -/
  | rdLy
  /-- read-line-compare, R103. -/
  | rdLyc
  /-- advance one tick, R110, at any natural counter value (R111, U7; DESIGN CHOICE, safe; log entry 16); `closeReq = true` is
  the trace notation's CLOSE (R79). -/
  | tick (cycles : Nat) (closeReq : Bool)
deriving DecidableEq, Repr

end Sys2Proof
end

