-- ==== Sys2Proof/Decode.lean ====
section
/-!
DEFINITION. Decoding an operation that is presented to the block, and its encoder (R61, R80). Decoding is total on every
25-bit bus word and every tick; a bus word that is none of the 13 address and direction pairs is rejected by name (R75).
-/

namespace Sys2Proof

/-- Why a presented operation is none of the block's: its address and direction pair is not in R61's table (R75; DESIGN CHOICE
of the spec, D14, safe; log entry 8). -/
inductive Rejection where
  | notAnOperation (write : Bool) (addr : Addr)
deriving DecidableEq, Repr

/-- The field `rw` of a bus word, bit 24: true for a write (R61). -/
def busWrite (w : BusWord) : Bool := w.getLsbD 24

/-- The field `addr` of a bus word, bits 23:8 (R61). -/
def busAddr (w : BusWord) : Addr := w.extractLsb' 8 16

/-- The field `data` of a bus word, bits 7:0 (R61). -/
def busData (w : BusWord) : Byte := w.extractLsb' 0 8

/-- A bus write at an address: the ten rows of R61 with rw = 1. -/
def decodeWrite (ra : RegAddr) (addr : Addr) (data : Byte) : Except Rejection Instr :=
  if addr = ra.lcdc then .ok (.wrLcdc data)
  else if addr = ra.stat then .ok (.wrStat data)
  else if addr = ra.scy then .ok (.wrScy data)
  else if addr = ra.scx then .ok (.wrScx data)
  else if addr = ra.lyc then .ok (.wrLyc data)
  else if addr = ra.bgp then .ok (.wrBgp data)
  else if addr = ra.obp0 then .ok (.wrObp0 data)
  else if addr = ra.obp1 then .ok (.wrObp1 data)
  else if addr = ra.wy then .ok (.wrWy data)
  else if addr = ra.wx then .ok (.wrWx data)
  else .error (.notAnOperation true addr)

/-- A bus read at an address: the three rows of R61 with rw = 0. -/
def decodeRead (ra : RegAddr) (addr : Addr) : Except Rejection Instr :=
  if addr = ra.stat then .ok .rdStat
  else if addr = ra.ly then .ok .rdLy
  else if addr = ra.lyc then .ok .rdLyc
  else .error (.notAnOperation false addr)

/-- A bus word (R61); the data of a read is ignored. -/
def decodeBus (ra : RegAddr) (w : BusWord) : Except Rejection Instr :=
  if busWrite w then decodeWrite ra (busAddr w) (busData w) else decodeRead ra (busAddr w)

/-- An operation as it is presented: a bus word by R61, a tick as it stands (R80). -/
def decode (ra : RegAddr) : Operation → Except Rejection Instr
  | .bus w => decodeBus ra w
  | .tick cycles closeReq => .ok (.tick cycles closeReq)

/-- The bus word `rw ++ addr ++ data` (R61). -/
def busWord (write : Bool) (addr : Addr) (data : Byte) : BusWord :=
  (BitVec.ofBool write ++ addr ++ data : BitVec 25)

/-- The word or tick that presents an operation (R61, R80); a read's ignored data bits are sent as 0. -/
def encode (ra : RegAddr) : Instr → Operation
  | .wrLcdc data => .bus (busWord true ra.lcdc data)
  | .wrStat data => .bus (busWord true ra.stat data)
  | .wrScy data => .bus (busWord true ra.scy data)
  | .wrScx data => .bus (busWord true ra.scx data)
  | .wrLyc data => .bus (busWord true ra.lyc data)
  | .wrBgp data => .bus (busWord true ra.bgp data)
  | .wrObp0 data => .bus (busWord true ra.obp0 data)
  | .wrObp1 data => .bus (busWord true ra.obp1 data)
  | .wrWy data => .bus (busWord true ra.wy data)
  | .wrWx data => .bus (busWord true ra.wx data)
  | .rdStat => .bus (busWord false ra.stat 0)
  | .rdLy => .bus (busWord false ra.ly 0)
  | .rdLyc => .bus (busWord false ra.lyc 0)
  | .tick cycles closeReq => .tick cycles closeReq

/-- The operation that a word of spec/opcode_table.json presents, by its number of bits: a row shorter than a bus word is
the row TICK, whose bit 0 is `q` = close_req (R80); the bits above `q` count up `cycles`, the input that the pattern leaves
out, so that a word of the pattern alone is a tick at `cycles` 0 (DESIGN CHOICE, safe; log entry 7). -/
def tableOperation (nbits w : Nat) : Operation :=
  if nbits < 25 then .tick (w / 2) (w % 2 == 1) else .bus (BitVec.ofNat 25 w)

/-- What the decoder, at the default register addresses, reads from an operation whose bits are `w`, numbered as
spec/opcode_table.json numbers them. -/
def decodeTableWord (nbits w : Nat) : Option Instr :=
  match decode regAddrDefault (tableOperation nbits w) with
  | .ok i => some i
  | .error _ => none

end Sys2Proof
end

