-- ==== Sys2Proof/Machine/State.lean ====
section
/-!
DEFINITION. The state of the machine as plain data, its reset value, and the reasons a step can stop.
-/

namespace Sys2Proof.Machine

/-- No fault exists: the block raises no exception and has no error state (R190, R41, R49), so there is no constructor
(log entry 17). -/
inductive Fault where
deriving DecidableEq, Repr

/-- Why a step refuses. -/
inductive Refusal where
  /-- An operation of the table without a meaning; raised by no arm of this model. Safe. -/
  | notModelled (mnemonic : String)
  /-- A bus access that is none of the 13 operations; raised by `step` alone, when decoding rejects the word (R75, R104,
  U11: "a model refuses them"; DESIGN CHOICE, log entry 8). Safe: nothing is claimed of such an access. -/
  | notAnOperation (write : Bool) (addr : Addr)
deriving DecidableEq, Repr

/-- The two kinds of interrupt request (R192). -/
inductive RequestKind where
  | lcdStat
  | vblank
deriving DecidableEq, Repr

/-- An event the block emits inside a tick: `request(k)` (R192) or `present()` (R203). -/
inductive Event where
  | request (kind : RequestKind)
  | present
deriving DecidableEq, Repr

/-- The signal a tick returns to its caller: CONTINUE or STOP (R110). -/
inductive Signal where
  | cont
  | stop
deriving DecidableEq, Repr

/-- What one operation puts out: the byte a register read returns to the initiator (R61), or a tick's signal and the
ordered list of its events (R110, R192). A register write puts out nothing (R100). -/
inductive Output where
  | read (value : Byte)
  | tick (signal : Signal) (events : List Event)
deriving DecidableEq, Repr

/-- The bytes that `MemRead` answers from (R42): address and byte pairs, in the canonical form `Memory.wf`. -/
abbrev Memory := List Host.Cell

/-- One framebuffer row: its 160 pixels from column 0; `none` is a pixel the block has not written since reset. -/
abbrev Row := List (Option Colour)

/-- The framebuffer (R47): row number and row pairs, in the canonical form `Framebuffer.wf`; a row that is not listed has no
pixel written since reset. Pixels outside rows 0 to 143 and columns 0 to 159 are left out (DESIGN CHOICE, safe; log entry 10). -/
abbrev Framebuffer := List (Nat × Row)

/-- The whole state. -/
structure State where
  /-- The configuration (R5); fixed for the machine, written by nothing (R19). -/
  cfg : Cfg
  /-- The record `reg` (R11). -/
  reg : Regs
  /-- The framebuffer `FB` (R47). -/
  fb : Framebuffer
  /-- Video memory and the sprite attribute table: the environment's, read by the block (R41, R42). -/
  mem : Memory
  /-- The model's own: what the block has put out, newest first (R192's event history); read by nothing (DESIGN CHOICE,
  safe; log entry 6). -/
  outputs : List Output
  /-- The model's own: what the environment does next, first next (R208; DESIGN CHOICE, safe; log entry 5). -/
  pending : List Input
deriving DecidableEq, Repr

/-- The state after reset under a configuration (R220): every register field as in `Cfg.RESET`, no pixel written, nothing
put out; the memory lists nothing and the environment has presented nothing (log entries 4, 5). Reset happens once and is no
input (DEDUCED; log entry 18). -/
def State.resetOf (c : Cfg) : State where
  cfg := c
  reg := c.reset
  fb := []
  mem := []
  outputs := []
  pending := []

/-- The state after reset under the default configuration (R5, R24). -/
def State.reset : State := State.resetOf cfgDefault

end Sys2Proof.Machine
end

