-- ==== Sys2Proof/Machine/Ops.lean ====
section
/-!
DEFINITION. The named operations over the state: memory and framebuffer access, what the block puts out, and taking the
environment's next input. The block takes no exception and returns from none (R197, R198), so there is no such operation:
what it does at its boundary is `record`, the one place that puts out a read's byte or a tick's signal and events.
-/

namespace Sys2Proof.Machine

/-- The value listed under a key. -/
def assocGet {α : Type} : List (Nat × α) → Nat → Option α
  | [], _ => none
  | (k, a) :: rest, key => if key = k then some a else assocGet rest key

/-- A value to list under a key, or nothing to list. -/
def assocEntry {α : Type} (key : Nat) : Option α → List (Nat × α)
  | none => []
  | some a => [(key, a)]

/-- The list with a key's value put in its place by rising keys, replaced, or (at `none`) removed. -/
def assocSet {α : Type} : List (Nat × α) → Nat → Option α → List (Nat × α)
  | [], key, v => assocEntry key v
  | (k, a) :: rest, key, v =>
    if key < k then assocEntry key v ++ (k, a) :: rest
    else if key = k then assocEntry key v ++ rest
    else (k, a) :: assocSet rest key v

/-- Strictly rising keys. -/
abbrev assocRising {α : Type} (l : List (Nat × α)) : Prop := l.Pairwise (fun p q => p.1 < q.1)

/-- What a memory byte that nothing has written reads as (DESIGN CHOICE, unsafe; log entry 4). -/
def unlistedByte : Byte := 0

/-- The canonical form of memory: addresses strictly rising, and no entry equal to what an unlisted address reads as. -/
abbrev Memory.wf (m : Memory) : Prop := assocRising m ∧ ∀ c ∈ m, c.2 ≠ unlistedByte

/-- `MemRead(addr, 1)` on an address that the block computes as an integer (R41, R55): total, no side effect. A negative
address, which no well-formed configuration computes, reads address 0 (DESIGN CHOICE; log entry 9). -/
def memRead (m : Memory) (addr : Int) : Byte := (assocGet m addr.toNat).getD unlistedByte

/-- One byte of memory changed: the environment's move (R208). The block has no such operation (R8, R41). -/
def memWrite (m : Memory) (addr : Nat) (data : Byte) : Memory :=
  assocSet m addr (if data = unlistedByte then none else some data)

/-- A row with no pixel written since reset. -/
def rowBlank : Row := List.replicate visibleWidth none

/-- The canonical form of the framebuffer (R25 g): rows strictly rising, each among 0 to 143, with 160 columns, and with
some pixel written. -/
abbrev Framebuffer.wf (fb : Framebuffer) : Prop :=
  assocRising fb ∧ ∀ p ∈ fb, p.1 < visibleLines ∧ p.2.length = visibleWidth ∧ p.2.any Option.isSome = true

/-- Row `row` of the framebuffer. -/
def fbRow (fb : Framebuffer) (row : Nat) : Row := (assocGet fb row).getD rowBlank

/-- The framebuffer with one row replaced. -/
def fbSetRow (fb : Framebuffer) (row : Nat) (r : Row) : Framebuffer :=
  assocSet fb row (if r.any Option.isSome then some r else none)

/-- What column `col` of a row holds as written: `none` if the block has not written it since reset. -/
def rowCell (r : Row) (col : Nat) : Option Colour := (r[col]?).join

/-- One column of a row changed by a function of what it held. -/
def rowModify (r : Row) (col : Nat) (f : Option Colour → Option Colour) : Row := r.modify col f

/-- `FB[row][col] <- c` on the row (R8). -/
def rowWrite (r : Row) (col : Nat) (c : Colour) : Row := rowModify r col (fun _ => some c)

/-- The colour that a cell shows: the colour written, or the free value it has held since reset (R24, U4; log entry 2). -/
def shownColour (row col : Nat) (cell : Option Colour) : Colour := cell.getD (Config.fbAtReset row col)

/-- `FB[row][col]` read (R8). -/
def fbPixel (fb : Framebuffer) (row col : Nat) : Colour := shownColour row col (rowCell (fbRow fb row) col)

/-- The state with one more output put out (R192): the history's newest entry. -/
def record (o : Output) (s : State) : State := { s with outputs := o :: s.outputs }

/-- The state with other registers. -/
def withReg (r : Regs) (s : State) : State := { s with reg := r }

/-- The environment's memory move applied (R208, R42). -/
def envWrite (addr : Nat) (data : Byte) (s : State) : State := { s with mem := memWrite s.mem addr data }

/-- The state after the first pending input has been taken. -/
def dropInput (s : State) : State := { s with pending := s.pending.tail }

/-- The state in which an operation is presented next, before what was pending. -/
def presentNext (op : Operation) (s : State) : State := { s with pending := .operation op :: s.pending }

end Sys2Proof.Machine
end

