-- ==== Sys2Proof/Machine/Flags.lean ====
section
/-!
DEFINITION. The flag bytes: the control byte taken apart (R62, R90), the status byte written and composed (R63, R91, R101),
the coincidence flag (R14 b), the mode's two bits (R16), and a palette byte taken apart (R65, R70).
-/

namespace Sys2Proof.Machine

/-- The mode's number, bits 1:0 of the status byte (R16, R63). -/
def modeCode : Mode → BitVec 2
  | .hblank => 0
  | .vblank => 1
  | .oamSearch => 2
  | .pixelTransfer => 3

/-- The eight control flags from the control byte, one bit each (R62; bits 1, 2, 3, 5, 6 DEDUCED, unsafe; log
entry 12). -/
def setControl (data : Byte) (r : Regs) : Regs :=
  { r with
    bgEnabled := data.getLsbD 0
    spritesEnabled := data.getLsbD 1
    spriteSize := data.getLsbD 2
    tilemapSelect := data.getLsbD 3
    bgTiledataSelect := data.getLsbD 4
    windowEnabled := data.getLsbD 5
    windowTilemapSelect := data.getLsbD 6
    lcdEnabled := data.getLsbD 7 }

/-- The control byte that the eight flags come from (R15: "the byte is recoverable"). -/
def controlByte (r : Regs) : Byte :=
  BitVec.ofBool r.lcdEnabled ++ BitVec.ofBool r.windowTilemapSelect ++ BitVec.ofBool r.windowEnabled
    ++ BitVec.ofBool r.bgTiledataSelect ++ BitVec.ofBool r.tilemapSelect ++ BitVec.ofBool r.spriteSize
    ++ BitVec.ofBool r.spritesEnabled ++ BitVec.ofBool r.bgEnabled

/-- The four interrupt enables from the status byte; its bits 7, 2, 1, 0 are ignored (R63, R91; places
DEDUCED, unsafe; log entry 12). -/
def setStatus (data : Byte) (r : Regs) : Regs :=
  { r with
    lyInt := data.getLsbD 6
    oamInt := data.getLsbD 5
    vblankInt := data.getLsbD 4
    hblankInt := data.getLsbD 3 }

/-- The coincidence flag as a status read computes it: the latched line against the compare value (R14 b, R101). -/
def coincidence (r : Regs) : Bool := r.currentLine == r.lineCompare

/-- The status byte as read: bit 7 is 1, then the four enables, the coincidence bit and the mode (R63, R101;
latched values and places DEDUCED, unsafe; log entries 11, 12). -/
def statusByte (r : Regs) : Byte :=
  BitVec.ofBool true ++ BitVec.ofBool r.lyInt ++ BitVec.ofBool r.oamInt ++ BitVec.ofBool r.vblankInt
    ++ BitVec.ofBool r.hblankInt ++ BitVec.ofBool (coincidence r) ++ modeCode r.lcdMode

/-- Palette entry `i` is data bits 2i+1 : 2i (R70). -/
def paletteEntry (data : Byte) (i : Nat) : Shade := data.extractLsb' (2 * i) 2

/-- The background palette of a byte (R65). -/
def bgPaletteOf (data : Byte) : Quad Shade :=
  ⟨paletteEntry data 0, paletteEntry data 1, paletteEntry data 2, paletteEntry data 3⟩

/-- A sprite palette of a byte: entry 0 is 0 whatever bits 1:0 are (R65, R70). -/
def objPaletteOf (data : Byte) : Quad Shade :=
  ⟨0, paletteEntry data 1, paletteEntry data 2, paletteEntry data 3⟩

/-- Entry `i` of a table of four. -/
def quadGet {α : Type} (q : Quad α) (i : BitVec 2) : α :=
  if i = 0 then q.e0 else if i = 1 then q.e1 else if i = 2 then q.e2 else q.e3

end Sys2Proof.Machine
end

