-- ==== Sys2Proof/Machine/RegisterReads.lean ====
section
/-!
DEFINITION. The three register reads (R101 to R103): each returns one byte to the initiator and changes no register (R100).
-/

namespace Sys2Proof.Machine

/-- A register read: the byte is put out, nothing else changes (R100, R61). -/
def readReg (f : Regs → Byte) (s : State) : Host.Outcome State Fault Refusal := .next (record (.read (f s.reg)) s)

/-- read-status (R101): the composed byte, of the latched line and mode (R17). -/
def execRdStat (s : State) : Host.Outcome State Fault Refusal := readReg statusByte s

/-- read-line (R102): the latched line. -/
def execRdLy (s : State) : Host.Outcome State Fault Refusal := readReg (fun r => r.currentLine) s

/-- read-line-compare (R103). -/
def execRdLyc (s : State) : Host.Outcome State Fault Refusal := readReg (fun r => r.lineCompare) s

end Sys2Proof.Machine
end

