-- ==== Sys2Proof/Machine/RegisterWrites.lean ====
section
/-!
DEFINITION. The ten register writes (R90 to R99): each changes exactly the fields its rule names (R100).
-/

namespace Sys2Proof.Machine

/-- A register write: it completes at once, cannot fail and puts out nothing (R100). -/
def writeReg (f : Regs → Regs) (s : State) : Host.Outcome State Fault Refusal := .next (withReg (f s.reg) s)

/-- write-control (R90). -/
def execWrLcdc (data : Byte) (s : State) : Host.Outcome State Fault Refusal := writeReg (setControl data) s

/-- write-status (R91). -/
def execWrStat (data : Byte) (s : State) : Host.Outcome State Fault Refusal := writeReg (setStatus data) s

/-- write-scroll-y (R93). -/
def execWrScy (data : Byte) (s : State) : Host.Outcome State Fault Refusal :=
  writeReg (fun r => { r with scrollY := data }) s

/-- write-scroll-x (R92). -/
def execWrScx (data : Byte) (s : State) : Host.Outcome State Fault Refusal :=
  writeReg (fun r => { r with scrollX := data }) s

/-- write-line-compare (R96). -/
def execWrLyc (data : Byte) (s : State) : Host.Outcome State Fault Refusal :=
  writeReg (fun r => { r with lineCompare := data }) s

/-- write-bg-palette (R97). -/
def execWrBgp (data : Byte) (s : State) : Host.Outcome State Fault Refusal :=
  writeReg (fun r => { r with bgPalette := bgPaletteOf data }) s

/-- write-sprite-palette-1 (R98). -/
def execWrObp0 (data : Byte) (s : State) : Host.Outcome State Fault Refusal :=
  writeReg (fun r => { r with objPalette1 := objPaletteOf data }) s

/-- write-sprite-palette-2 (R99). -/
def execWrObp1 (data : Byte) (s : State) : Host.Outcome State Fault Refusal :=
  writeReg (fun r => { r with objPalette2 := objPaletteOf data }) s

/-- write-window-y (R95). -/
def execWrWy (data : Byte) (s : State) : Host.Outcome State Fault Refusal :=
  writeReg (fun r => { r with windowY := data }) s

/-- write-window-x (R94). -/
def execWrWx (data : Byte) (s : State) : Host.Outcome State Fault Refusal :=
  writeReg (fun r => { r with windowX := data }) s

end Sys2Proof.Machine
end

