-- ==== Sys2Proof/Machine/Operands.lean ====
section
/-!
DEFINITION. The operands that the renderer assembles from what it reads (30_encoding §3, §4): layer coordinates, the tilemap
cell's and the tile's address, the sprite attribute slot, pixel bit selection, and the colour of a shade.
-/

namespace Sys2Proof.Machine

/-- A pixel's place in a layer: the tilemap's base address and the layer coordinates (R74). -/
structure LayerPoint where
  mapBase : Nat
  tx : Nat
  ty : Nat
deriving DecidableEq, Repr

/-- A sprite descriptor (R20, R140): signed coordinates, tile index, flags, and the slot it was read from. -/
structure Descriptor where
  y : Int
  x : Int
  tileIndex : Byte
  flags : Byte
  slot : Nat
deriving DecidableEq, Repr

/-- The tilemap a select flag chooses: false `MAP_BASE_0`, true `MAP_BASE_1` (R62, D6; DEDUCED, unsafe;
log entry 12). -/
def mapBase (c : Cfg) (select : Bool) : Nat := if select then c.mapBase1 else c.mapBase0

/-- The window's place for a pixel (R154, R74): no scroll, and `window_x` does not apply (D16; DEDUCED, unsafe; log
entry 13). -/
def windowPoint (c : Cfg) (r : Regs) (line x : Nat) : LayerPoint where
  mapBase := mapBase c r.windowTilemapSelect
  tx := x
  ty := line - r.windowY.toNat

/-- The background's place for a pixel: scrolled, modulo 256 (R153, R74). -/
def backgroundPoint (c : Cfg) (r : Regs) (line x : Nat) : LayerPoint where
  mapBase := mapBase c r.tilemapSelect
  tx := (x + r.scrollX.toNat) % 256
  ty := (line + r.scrollY.toNat) % 256

/-- The address of the tilemap cell that holds the tile index (R69, R155). -/
def cellAddr (p : LayerPoint) : Int := (p.mapBase + (p.ty / 8) * mapWidthTiles + p.tx / 8 : Nat)

/-- The address of a background or window tile: unsigned from one base, or two's complement from the other (R71, R155;
DEDUCED, unsafe; log entry 12). -/
def tileAddr (c : Cfg) (unsigned : Bool) (idx : Byte) : Int :=
  if unsigned then (c.tileBaseUnsigned + idx.toNat * tileBytes : Nat)
  else (c.tileBaseSigned : Int) + idx.toInt * (tileBytes : Int)

/-- The colour index of bit `b` of the two bitplane bytes: byte2's bit above byte1's (R68, R156). -/
def colourIndex (byte1 byte2 : Byte) (b : Nat) : Shade :=
  BitVec.ofBool (byte2.getLsbD b) ++ BitVec.ofBool (byte1.getLsbD b)

/-- The colour index of one pixel whose tile row starts at an address (R68, R44 a; byte order DEDUCED,
unsafe; log entry 12). -/
def fetchIndex (m : Memory) (rowAddr : Int) (b : Nat) : Shade :=
  colourIndex (memRead m rowAddr) (memRead m (rowAddr + 1)) b

/-- The colour of a shade (R19, R157). -/
def shadeColour (c : Cfg) (shade : Shade) : Colour := quadGet c.shadeRgb shade

/-- The colour of background colour index 0 (R152, R176). -/
def bgZeroColour (c : Cfg) (r : Regs) : Colour := shadeColour c r.bgPalette.e0

/-- The address of byte `k` of attribute slot `i` (R67). -/
def slotAddr (c : Cfg) (i k : Nat) : Int := (c.oamBase + c.oamEntryBytes * i + k : Nat)

/-- Slot `i` of the attribute table read and taken apart (R67, R72, R140; byte order DEDUCED, unsafe; log entry 12). -/
def readSlot (c : Cfg) (m : Memory) (i : Nat) : Descriptor where
  y := ((memRead m (slotAddr c i 0)).toNat : Int) - (spriteYOffset : Int)
  x := ((memRead m (slotAddr c i 1)).toNat : Int) - (c.spriteXOffset : Int)
  tileIndex := memRead m (slotAddr c i 2)
  flags := memRead m (slotAddr c i 3)
  slot := i

/-- The background-priority flag, bit 7 (R67). -/
def bgPriority (d : Descriptor) : Bool := d.flags.getLsbD 7

/-- The vertical flip flag, bit 6 (R67). -/
def vflip (d : Descriptor) : Bool := d.flags.getLsbD 6

/-- The horizontal flip flag, bit 5 (R67). -/
def hflip (d : Descriptor) : Bool := d.flags.getLsbD 5

/-- The palette flag, bit 4: false sprite palette 1, true sprite palette 2 (R67, D20; DEDUCED,
unsafe; log entry 12). -/
def paletteFlag (d : Descriptor) : Bool := d.flags.getLsbD 4

/-- The height of a sprite: 16 when `sprite_size` is set, else 8 (R140). -/
def spriteHeight (r : Regs) : Int := if r.spriteSize then 16 else 8

/-- The sprite-local row, with the vertical flip over the whole height (R172, R73). -/
def spriteRow (r : Regs) (d : Descriptor) (line : Nat) : Int :=
  if vflip d then (spriteHeight r - 1) - ((line : Int) - d.y) else (line : Int) - d.y

/-- The address of the sprite's tile row; the index is unsigned and used as stored (R173, R71). -/
def spriteRowAddr (c : Cfg) (r : Regs) (d : Descriptor) (line : Nat) : Int :=
  (c.spriteTileBase : Int) + (d.tileIndex.toNat : Int) * (tileBytes : Int) + spriteRow r d line * 2

/-- The bit of sprite column `col`: `7 − col`, or `col` with the horizontal flip (R73, R174). -/
def spriteBit (d : Descriptor) (col : Nat) : Nat := if hflip d then col else 7 - col

/-- The palette of a sprite (R175). -/
def spritePalette (r : Regs) (d : Descriptor) : Quad Shade := if paletteFlag d then r.objPalette2 else r.objPalette1

end Sys2Proof.Machine
end

