-- ==== Sys2Proof/Machine/RenderBackground.lean ====
section
/-!
DEFINITION. The Scanline Renderer's background and window pass (R150 to R158), on one framebuffer row.
-/

namespace Sys2Proof.Machine

/-- Whether the line lies in the window: `window_enabled and window_y ≤ line`; no column enters (R151; the band is
DEDUCED, unsafe; log entry 13). -/
def windowActive (r : Regs) (line : Nat) : Bool := r.windowEnabled && decide (r.windowY.toNat ≤ line)

/-- The layer a pixel comes from: the window, else the background, else (`none`) the background-disabled branch
(R151, R152, R153). -/
def layerPoint (c : Cfg) (r : Regs) (line x : Nat) : Option LayerPoint :=
  if windowActive r line then some (windowPoint c r line x)
  else if r.bgEnabled then some (backgroundPoint c r line x)
  else none

/-- The colour index at a place of a layer: tile index, tile address, tile row, bit `7 − tx mod 8` (R155, R156). -/
def layerIndex (c : Cfg) (r : Regs) (m : Memory) (p : LayerPoint) : Shade :=
  fetchIndex m (tileAddr c r.bgTiledataSelect (memRead m (cellAddr p)) + ((2 * (p.ty % 8) : Nat) : Int)) (7 - p.tx % 8)

/-- The colour of a background or window pixel: the background palette, then the shade table (R157). -/
def layerColour (c : Cfg) (r : Regs) (m : Memory) (p : LayerPoint) : Colour :=
  shadeColour c (quadGet r.bgPalette (layerIndex c r m p))

/-- The pass over a list of columns in order: each pixel is stored (R158), and the background-disabled branch stores
background-zero's colour and, when `BG_DISABLED_ABORT` is set, ends the pass (R152; DESIGN CHOICE, unsafe
for the colour; log entry 14). -/
def backgroundFrom (c : Cfg) (r : Regs) (m : Memory) (line : Nat) : List Nat → Row → Row
  | [], row => row
  | x :: rest, row =>
    match layerPoint c r line x with
    | some p => backgroundFrom c r m line rest (rowWrite row x (layerColour c r m p))
    | none =>
      if c.bgDisabledAbort then rowWrite row x (bgZeroColour c r)
      else backgroundFrom c r m line rest (rowWrite row x (bgZeroColour c r))

/-- `RenderBackgroundWindow(line)` on the line's row (R150). -/
def renderBackground (c : Cfg) (r : Regs) (m : Memory) (line : Nat) (row : Row) : Row :=
  backgroundFrom c r m line (List.range visibleWidth) row

end Sys2Proof.Machine
end

