-- ==== Sys2Proof/Machine/SpriteSelect.lean ====
section
/-!
DEFINITION. The Sprite Selector (R140 to R143) and the Sprite Orderer (R144, R145).
-/

namespace Sys2Proof.Machine

/-- The selection test `y ≤ line < y + height`, in integers (R141). -/
def onLine (r : Regs) (line : Nat) (d : Descriptor) : Bool :=
  decide (d.y ≤ (line : Int)) && decide ((line : Int) < d.y + spriteHeight r)

/-- The scan of the slots in order, with room for so many more matches; it stops when there is no room (R140, R142). -/
def selectFrom (c : Cfg) (r : Regs) (m : Memory) (line : Nat) : Nat → List Nat → List Descriptor
  | _, [] => []
  | 0, _ :: _ => []
  | room + 1, i :: rest =>
    if onLine r line (readSlot c m i) then readSlot c m i :: selectFrom c r m line room rest
    else selectFrom c r m line (room + 1) rest

/-- `SelectSprites(line)` (R140). -/
def selectSprites (c : Cfg) (r : Regs) (m : Memory) (line : Nat) : List Descriptor :=
  selectFrom c r m line maxSpritesPerLine (List.range oamSlots)

/-- A descriptor put before the first one whose x is not greater than its own (R144). -/
def insertByX (d : Descriptor) : List Descriptor → List Descriptor
  | [] => [d]
  | e :: rest => if e.x ≤ d.x then d :: e :: rest else e :: insertByX d rest

/-- `OrderSprites(list)`: stable, by descending x (R144; that the higher slot then shows on top is C1, DEDUCED,
unsafe; log entry 15). -/
def orderSprites : List Descriptor → List Descriptor
  | [] => []
  | d :: rest => insertByX d (orderSprites rest)

end Sys2Proof.Machine
end

