-- ==== Sys2Proof/Machine/RenderSprites.lean ====
section
/-!
DEFINITION. The Scanline Renderer's sprite pass (R170 to R177), on one framebuffer row.
-/

namespace Sys2Proof.Machine

/-- What a sprite's pixel makes of a cell: without background priority it overwrites (R177), with it it overwrites only
where the cell shows the colour `bg0` (R176, C8; DEDUCED, unsafe; log entry 15). -/
def spriteCell (line px : Nat) (bg0 : Colour) (priority : Bool) (colour : Colour) (cell : Option Colour) : Option Colour :=
  if priority then (if shownColour line px cell = bg0 then some colour else cell) else some colour

/-- One column of a sprite: dropped at or past column 160 and before column 0, dropped at colour index 0, else drawn
(R174, R175). -/
def drawColumn (c : Cfg) (r : Regs) (m : Memory) (line : Nat) (d : Descriptor) (row : Row) (col : Nat) : Row :=
  if d.x + (col : Int) ≥ (visibleWidth : Int) then row
  else if d.x + (col : Int) < 0 then row
  else if fetchIndex m (spriteRowAddr c r d line) (spriteBit d col) = 0 then row
  else
    rowModify row (d.x + (col : Int)).toNat
      (spriteCell line (d.x + (col : Int)).toNat (bgZeroColour c r) (bgPriority d)
        (shadeColour c (quadGet (spritePalette r d) (fetchIndex m (spriteRowAddr c r d line) (spriteBit d col)))))

/-- One sprite: skipped when fully off the left edge, else its eight columns in order (R171, R174). -/
def drawSprite (c : Cfg) (r : Regs) (m : Memory) (line : Nat) (row : Row) (d : Descriptor) : Row :=
  if d.x < -7 then row else (List.range 8).foldl (drawColumn c r m line d) row

/-- `RenderSprites(line)` on the line's row: the ordered list from first to last; nothing when `SPRITES_ENABLE_GATES` is set
and the sprites are off (R170, D18; DESIGN CHOICE, safe; log entry 14). -/
def renderSprites (c : Cfg) (r : Regs) (m : Memory) (line : Nat) (row : Row) : Row :=
  if c.spritesEnableGates && !r.spritesEnabled then row
  else (orderSprites (selectSprites c r m line)).foldl (drawSprite c r m line) row

end Sys2Proof.Machine
end

