-- ==== Sys2Proof/Machine/Timing.lean ====
section
/-!
DEFINITION. The Timing and Interrupt State Machine: line, position and mode from the cycle counter (R112, R113), the
interrupt evaluation (R115), the two edge conditions on the line (R116, R117), and the fields a tick writes (R112, R113, R119).
-/

namespace Sys2Proof.Machine

/-- `frame_position = cycles mod 17556` (R112). -/
def framePosition (cycles : Nat) : Nat := cycles % unitsPerFrame

/-- `line = frame_position / 114` (R112). -/
def lineOf (cycles : Nat) : Nat := framePosition cycles / unitsPerLine

/-- `line_position = frame_position mod 114` (R112). -/
def linePosition (cycles : Nat) : Nat := framePosition cycles % unitsPerLine

/-- The mode, its conditions tested in the order written (R113). -/
def modeOf (cycles : Nat) : Mode :=
  if visibleLines ≤ lineOf cycles then .vblank
  else if linePosition cycles < mode2End then .oamSearch
  else if linePosition cycles < mode3End then .pixelTransfer
  else .hblank

/-- `reg.current_line <- line`, `reg.lcd_mode <- mode` (R112, R113). -/
def latch (line : Nat) (mode : Mode) (r : Regs) : Regs :=
  { r with currentLine := BitVec.ofNat 8 line, lcdMode := mode }

/-- `reg.prev_line <- line`, `reg.prev_mode <- mode` (R119). -/
def bookkeep (line : Nat) (mode : Mode) (r : Regs) : Regs :=
  { r with prevLine := BitVec.ofNat 8 line, prevMode := mode }

/-- Which condition of R115 made the request; the request itself does not carry it (R115 corner case 6). -/
inductive StatSource where
  | coincidence
  | hblankEntry
  | vblankEntry
  | oamEntry
deriving DecidableEq, Repr

/-- The priority chain a, b, c, d: the first true condition wins (R115, R195). -/
def statSource (r : Regs) (line : Nat) (mode : Mode) : Option StatSource :=
  if r.lyInt = true ∧ line = r.lineCompare.toNat then some .coincidence
  else if r.hblankInt = true ∧ mode = .hblank ∧ r.prevMode ≠ .hblank then some .hblankEntry
  else if r.vblankInt = true ∧ mode = .vblank ∧ r.prevMode ≠ .vblank then some .vblankEntry
  else if r.oamInt = true ∧ mode = .oamSearch ∧ r.prevMode ≠ .oamSearch then some .oamEntry
  else none

/-- The interrupt evaluation's output: at most one `request(LCD_STAT)` (R115). -/
def statEvents (r : Regs) (line : Nat) (mode : Mode) : List Event :=
  match statSource r line mode with
  | some _ => [.request .lcdStat]
  | none => []

/-- Whether the tick renders its line: the line changed and is visible (R116). -/
def renderDue (r : Regs) (line : Nat) : Bool := line != r.prevLine.toNat && decide (line < visibleLines)

/-- The frame boundary's output: `present()` then `request(VBLANK)` at the step from line 143 to line 144 (R117). -/
def frameEvents (r : Regs) (line : Nat) : List Event :=
  if r.prevLine.toNat = 143 ∧ line = 144 then [.present, .request .vblank] else []

end Sys2Proof.Machine
end

