-- ==== Sys2Proof/Machine/Tick.lean ====
section
/-!
DEFINITION. The Frame Driver: the tick (R110), its steps in the order of R51.
-/

namespace Sys2Proof.Machine

/-- The two passes over one row, background and window first (R116). -/
def renderRow (c : Cfg) (r : Regs) (m : Memory) (line : Nat) (row : Row) : Row :=
  renderSprites c r m line (renderBackground c r m line row)

/-- `RenderLine(line)` (R116). -/
def renderLine (line : Nat) (s : State) : State :=
  { s with fb := fbSetRow s.fb line (renderRow s.cfg s.reg s.mem line (fbRow s.fb line)) }

/-- Step 4: the line is rendered if it is due (R116). -/
def renderStep (line : Nat) (s : State) : State := if renderDue s.reg line then renderLine line s else s

/-- The events of a tick, in order: the interrupt evaluation's, then the frame boundary's (R51, R196). -/
def tickEvents (r : Regs) (line : Nat) (mode : Mode) : List Event := statEvents r line mode ++ frameEvents r line

/-- A tick that is not stopped, for its line and mode: latch, evaluate, render, frame boundary, bookkeeping, CONTINUE (R110). -/
def tickAt (line : Nat) (mode : Mode) (s : State) : State :=
  let latched := withReg (latch line mode s.reg) s
  let events := tickEvents latched.reg line mode
  let rendered := renderStep line latched
  record (.tick .cont events) (withReg (bookkeep line mode rendered.reg) rendered)

/-- advance one tick (R110): a close request returns STOP and does no further work (R120, D21;
DEDUCED, unsafe; log entry 19). -/
def execTick (cycles : Nat) (closeReq : Bool) (s : State) : Host.Outcome State Fault Refusal :=
  if closeReq then .next (record (.tick .stop []) s) else .next (tickAt (lineOf cycles) (modeOf cycles) s)

end Sys2Proof.Machine
end

