-- ==== Sys2Proof/Machine/Dispatch.lean ====
section
/-!
DEFINITION. The one dispatch: each operation to its meaning.
-/

namespace Sys2Proof.Machine

def exec (i : Instr) (s : State) : Host.Outcome State Fault Refusal :=
  match i with
  | .wrLcdc data => Sys2Proof.Machine.execWrLcdc data s
  | .wrStat data => Sys2Proof.Machine.execWrStat data s
  | .wrScy data => Sys2Proof.Machine.execWrScy data s
  | .wrScx data => Sys2Proof.Machine.execWrScx data s
  | .wrLyc data => Sys2Proof.Machine.execWrLyc data s
  | .wrBgp data => Sys2Proof.Machine.execWrBgp data s
  | .wrObp0 data => Sys2Proof.Machine.execWrObp0 data s
  | .wrObp1 data => Sys2Proof.Machine.execWrObp1 data s
  | .wrWy data => Sys2Proof.Machine.execWrWy data s
  | .wrWx data => Sys2Proof.Machine.execWrWx data s
  | .rdStat => Sys2Proof.Machine.execRdStat s
  | .rdLy => Sys2Proof.Machine.execRdLy s
  | .rdLyc => Sys2Proof.Machine.execRdLyc s
  | .tick cycles closeReq => Sys2Proof.Machine.execTick cycles closeReq s

end Sys2Proof.Machine
end

