-- ==== Sys2Proof/Machine/Step.lean ====
section
/-!
DEFINITION. One step: the environment's next input. An operation is decoded and executed, a memory change is applied, and
with nothing pending nothing happens.
-/

namespace Sys2Proof.Machine

/-- One step. With nothing pending the block stands still: it advances only when an operation is presented (R12; log
entry 5). A bus access that decodes to none of the 13 operations is refused by name (R75). -/
def step (s : State) : Host.Outcome State Fault Refusal :=
  match s.pending with
  | [] => .next s
  | .memory addr data :: _ => .next (envWrite addr data (dropInput s))
  | .operation op :: _ =>
    match decode s.cfg.regAddr op with
    | .ok i => exec i (dropInput s)
    | .error (.notAnOperation write addr) => .refused (.notAnOperation write addr)

/-- The state in which the operation of a table word is presented next, so that the very next step runs it. -/
def State.withFetchWord (s : State) (nbits w : Nat) : State := presentNext (tableOperation nbits w) s

end Sys2Proof.Machine
end

