-- ==== Sys2Proof/WellFormed.lean ====
section
/-!
DEFINITION. What makes an operation, and a configuration, well formed. The types already carry the operands' widths, so an
operation has nothing left to check; a configuration has the constraints that the spec states for its parameters.
-/

namespace Sys2Proof

/-- Every operation is well formed: "all byte inputs are valid" (R100, R76), and the tick is defined for every natural
`cycles` (R111). -/
def Instr.wf : Instr → Bool
  | .wrLcdc _ => true
  | .wrStat _ => true
  | .wrScy _ => true
  | .wrScx _ => true
  | .wrLyc _ => true
  | .wrBgp _ => true
  | .wrObp0 _ => true
  | .wrObp1 _ => true
  | .wrWy _ => true
  | .wrWx _ => true
  | .rdStat => true
  | .rdLy => true
  | .rdLyc => true
  | .tick _ _ => true

/-- The eleven register addresses, in the order of R5's table. -/
def RegAddr.toList (a : RegAddr) : List Addr :=
  [a.lcdc, a.stat, a.scy, a.scx, a.ly, a.lyc, a.bgp, a.obp0, a.obp1, a.wy, a.wx]

/-- The eleven addresses are pairwise different (R61, R43). -/
abbrev RegAddr.wf (a : RegAddr) : Prop := a.toList.Nodup

/-- The constraints on a register record, a reset record included (R24, R25 a and f): the two line fields are at most 153
and entry 0 of each sprite palette is 0. -/
abbrev Regs.wf (r : Regs) : Prop :=
  r.currentLine ≤ 153 ∧ r.prevLine ≤ 153 ∧ r.objPalette1.e0 = 0 ∧ r.objPalette2.e0 = 0

/-- A configuration the spec allows: different register addresses, a signed tile base that leaves every computed address a
natural number (R43's offset −2048), slots of 4 bytes (D8), a framebuffer that holds the 160×144 region (R5, D11) and a
reset record within its ranges (R24). -/
abbrev Cfg.wf (c : Cfg) : Prop :=
  c.regAddr.wf ∧ 2048 ≤ c.tileBaseSigned ∧ c.oamEntryBytes = 4 ∧ 160 ≤ c.fbStride ∧ 144 ≤ c.fbRows ∧ c.reset.wf

end Sys2Proof
end

