-- ==== Sys2Proof/Safety.lean ====
section
/-!
DEFINITION. What a good state and a safe step are, in the terms the statements use: the invariants of R25, runs of ticks and
what an observer counts in them, the pixel a sprite would draw, the tables of R43, and states that differ only where nothing
reads.
-/

namespace Sys2Proof

open Machine

/-- The invariant of R25 (a), (f) and (g) with the canonical forms: the line fields are at most 153, entry 0 of each sprite
palette is 0, the framebuffer lists only pixels of rows 0 to 143 and columns 0 to 159, the memory is in its form. -/
abbrev Machine.State.Inv (s : State) : Prop := s.reg.wf ∧ s.fb.wf ∧ s.mem.wf

/-- R25 (b) and (c), which hold after every tick that was not stopped: the mode is V-blank exactly on lines from 144 on, and
the latched line and mode are those kept for edge detection. -/
abbrev Machine.State.Settled (s : State) : Prop :=
  (s.reg.lcdMode = .vblank ↔ 144 ≤ s.reg.currentLine.toNat) ∧ s.reg.prevLine = s.reg.currentLine ∧
    s.reg.prevMode = s.reg.lcdMode

/-- A bus access is served when its address and direction pair is one of R61's thirteen. -/
abbrev Served (ra : RegAddr) (w : BusWord) : Prop :=
  if w.getLsbD 24 then
    busAddr w ∈ [ra.lcdc, ra.stat, ra.scy, ra.scx, ra.lyc, ra.bgp, ra.obp0, ra.obp1, ra.wy, ra.wx]
  else busAddr w ∈ [ra.stat, ra.ly, ra.lyc]

/-- So many steps, ending at the first stop. -/
def runSteps : Nat → State → Host.Outcome State Fault Refusal
  | 0, s => .next s
  | k + 1, s =>
    match step s with
    | .next t => runSteps k t
    | .fault r => .fault r
    | .refused r => .refused r

/-- Ticks that are not stopped, executed in order at the listed values of the cycle counter. -/
def execTicks : List Nat → State → Host.Outcome State Fault Refusal
  | [], s => .next s
  | c :: rest, s =>
    match exec (.tick c false) s with
    | .next t => execTicks rest t
    | .fault r => .fault r
    | .refused r => .refused r

/-- The lines on which those ticks meet R116's condition, read at each tick's own state, in order. That such a tick renders its
row is a statement of its own, and so is what a run leaves in each row. -/
def renderedLines : List Nat → State → List Nat
  | [], _ => []
  | c :: rest, s =>
    match exec (.tick c false) s with
    | .next t =>
      (if c % 17556 / 114 ≠ s.reg.prevLine.toNat ∧ c % 17556 / 114 < 144 then [c % 17556 / 114] else [])
        ++ renderedLines rest t
    | .fault _ => []
    | .refused _ => []

/-- How often an event stands in the ticks of an output history. -/
def eventCount (e : Event) : List Output → Nat
  | [] => 0
  | .read _ :: rest => eventCount e rest
  | .tick _ events :: rest => events.count e + eventCount e rest

/-- The counter never decreases and never advances by more than `stride` from one tick to the next, after a tick at `c`
(R111, R230). -/
def strided (stride : Nat) : Nat → List Nat → Bool
  | _, [] => true
  | c, d :: rest => decide (c ≤ d) && decide (d ≤ c + stride) && strided stride d rest

/-- How many visible lines have begun, counted from line 0 of frame 0 as number 0, when the counter stands at `c`. -/
def visibleLinesBegun (c : Nat) : Nat := 144 * (c / 17556) + min (c % 17556 / 114) 143

/-- How many steps from line 143 to line 144 lie at or before `c`. -/
def boundariesPassed (c : Nat) : Nat := (c + 1140) / 17556

/-- How many H-blanks have begun at or before `c` (position 63 of each visible line). -/
def hblanksBegun (c : Nat) : Nat := 144 * (c / 17556) + min 144 ((c % 17556 + 51) / 114)

/-- How many OAM searches have begun at or before `c` (position 0 of each visible line). -/
def oamSearchesBegun (c : Nat) : Nat := 144 * (c / 17556) + min 144 (c % 17556 / 114 + 1)

/-- The colour a sprite puts at a screen column of a line it lies on, or nothing where it is off the column or transparent:
the left-edge skip (R171), the row and its flip (R172), the fetch (R173), the column's bit and colour index 0 (R174), the
palette (R175). -/
def spriteColourAt (c : Cfg) (r : Regs) (m : Memory) (line : Nat) (d : Descriptor) (px : Nat) : Option Colour :=
  let height : Int := if r.spriteSize then 16 else 8
  let row : Int := if d.flags.getLsbD 6 then (height - 1) - ((line : Int) - d.y) else (line : Int) - d.y
  let a : Int := (c.spriteTileBase : Int) + (d.tileIndex.toNat : Int) * 16 + row * 2
  let col : Nat := ((px : Int) - d.x).toNat
  let b : Nat := if d.flags.getLsbD 5 then col else 7 - col
  let ci : Shade := BitVec.ofBool ((memRead m (a + 1)).getLsbD b) ++ BitVec.ofBool ((memRead m a).getLsbD b)
  let palette : Quad Shade := if d.flags.getLsbD 4 then r.objPalette2 else r.objPalette1
  if d.x < -7 ∨ (px : Int) < d.x ∨ d.x + 7 < (px : Int) ∨ ci = 0 then none
  else some (quadGet c.shadeRgb (quadGet palette ci))

/-- What one sprite makes of what a pixel of its line holds: nothing where it draws no colour, else its colour, or, with the
background-priority flag, its colour only where the pixel shows background index 0's colour (R176, R177). -/
def spriteOver (c : Cfg) (r : Regs) (m : Memory) (line px : Nat) (cell : Option Colour) (d : Descriptor) : Option Colour :=
  match spriteColourAt c r m line d px with
  | none => cell
  | some colour =>
    if d.flags.getLsbD 7 = true ∧ cell.getD (Config.fbAtReset line px) ≠ quadGet c.shadeRgb r.bgPalette.e0 then cell
    else some colour

/-- The sprite pass runs: it is not gated off (R170). -/
abbrev spritesRun (c : Cfg) (r : Regs) : Prop := ¬(c.spritesEnableGates = true ∧ r.spritesEnabled = false)

/-- The addresses of the tables that the block reads (R43). -/
abbrev tableAddress (c : Cfg) (a : Int) : Prop :=
  ((c.mapBase0 : Int) ≤ a ∧ a < c.mapBase0 + 1024) ∨ ((c.mapBase1 : Int) ≤ a ∧ a < c.mapBase1 + 1024) ∨
    ((c.tileBaseUnsigned : Int) ≤ a ∧ a < c.tileBaseUnsigned + 4096) ∨
    ((c.tileBaseSigned : Int) - 2048 ≤ a ∧ a < c.tileBaseSigned + 2048) ∨
    ((c.spriteTileBase : Int) ≤ a ∧ a < c.spriteTileBase + 4112) ∨ ((c.oamBase : Int) ≤ a ∧ a < c.oamBase + 160)

/-- Two states that differ at most in the display enable and in `window_x`. -/
abbrev SameButUnreadRegs (s t : State) : Prop :=
  t = { s with reg := { s.reg with lcdEnabled := t.reg.lcdEnabled, windowX := t.reg.windowX } }

/-- Two outcomes of a kind: both go on in related states, or both stop for the same reason. -/
def outcomesRelated (rel : State → State → Prop) :
    Host.Outcome State Fault Refusal → Host.Outcome State Fault Refusal → Prop
  | .next s, .next t => rel s t
  | .fault a, .fault b => a = b
  | .refused a, .refused b => a = b
  | _, _ => False

end Sys2Proof
end

