-- ==== Sys2Proof/Certificates/Slice0/Obligations.lean ====
section
/-!
DEFINITION. The statements for the provers. Each docstring names the rule of spec/ it formalises; where a clause rests on a
decision of the spec (92_eei_decisions) or on an entry of the model's assumption log, it says so.
-/

open Sys2Proof Sys2Proof.Machine

/-! ## The step -/

/-- When an operation stands first among the pending inputs and decodes to `i`, a step is `exec i` at the state without that
input. The order of inputs is R50's; that the inputs wait in a list is the model's (log entry 5). -/
def Obligations.StepRunsTheDecodedOperation : Prop :=
  ∀ (s : State) (op : Operation) (rest : List Input) (i : Instr),
    s.pending = .operation op :: rest → decode s.cfg.regAddr op = .ok i → step s = exec i { s with pending := rest }

/-- At the default register addresses, the state with a table word presented runs the operation that the decoder reads from it,
at the state before (log entries 5, 7). -/
def Obligations.PresentedTableWordRunsNext : Prop :=
  ∀ (s : State) (nbits w : Nat) (i : Instr), s.cfg.regAddr = regAddrDefault → decodeTableWord nbits w = some i →
    step (s.withFetchWord nbits w) = exec i s

/-- R208, R42: a memory move of the environment changes that one byte and nothing else, in every state whose memory is in its
canonical form; with nothing pending a step changes nothing (log entry 5). -/
def Obligations.EnvironmentMovesChangeOneByteOnly : Prop :=
  (∀ (s : State) (addr : Nat) (data : Byte) (rest : List Input), s.mem.wf → s.pending = .memory addr data :: rest →
    ∃ t, step s = .next t ∧ t = { s with pending := rest, mem := t.mem } ∧ t.mem.wf ∧ memRead t.mem addr = data ∧
      ∀ a : Int, a.toNat ≠ addr → memRead t.mem a = memRead s.mem a) ∧
  ∀ s : State, s.pending = [] → step s = .next s

/-- R75, D14: a bus transaction is refused, under its direction and address, exactly when its pair is not in R61's table; the
pairs' addresses are `Cfg.REG_ADDR`'s. -/
def Obligations.ExactlyUnservedAccessesAreRefused : Prop :=
  ∀ (s : State) (w : BusWord) (rest : List Input), s.pending = .operation (.bus w) :: rest →
    (¬ Served s.cfg.regAddr w → step s = .refused (.notAnOperation (w.getLsbD 24) (busAddr w))) ∧
    (Served s.cfg.regAddr w → ∃ i, decode s.cfg.regAddr (.bus w) = .ok i ∧ ∃ t, step s = .next t)

/-- Every step keeps the configuration (R19: no operation writes it), only an environment's move changes the memory (R8, R41:
the block never writes it), and the step takes the first pending input (log entry 5). -/
def Obligations.BlockNeverWritesMemoryOrConfiguration : Prop :=
  ∀ s t : State, step s = .next t →
    t.cfg = s.cfg ∧ t.pending = s.pending.tail ∧
      ((∀ addr data, s.pending.head? ≠ some (.memory addr data)) → t.mem = s.mem)

/-! ## Encoding -/

/-- R61, R80: at every map of pairwise different register addresses, decoding the word that presents an operation gives the
operation back, with every operand at every value. The word format is the spec's own (D30). -/
def Obligations.DecodeOfEncodeGivesTheOperationBack : Prop :=
  ∀ (ra : RegAddr) (i : Instr), ra.wf → i.wf = true → decode ra (encode ra i) = .ok i

/-- R61: a bus word that decodes is the word of the operation it decodes to; of a read, whose data bits are ignored, it is
that word up to those bits. -/
def Obligations.DecodedWordIsTheOperationsWord : Prop :=
  ∀ (ra : RegAddr) (w : BusWord) (i : Instr), decode ra (.bus w) = .ok i →
    encode ra i = .bus (if w.getLsbD 24 then w else w &&& 0x1FFFF00)

/-- Words written out from the spec decode to what they stand for: the five printed in programs P1 and P3 (95_test_vectors §3),
the word that R61's table and S1's byte give for write-control, and a write to the line register, which is no operation (R75).
The last clause, the tick's eight-bit word, is the model's own numbering (log entry 7). -/
def Obligations.SpecWordsDecodeAsWritten : Prop :=
  decodeTableWord 32 0x1FF4091 = some (.wrLcdc 0x91) ∧ decodeTableWord 32 0x1FF4168 = some (.wrStat 0x68) ∧
    decodeTableWord 32 0x1FF4203 = some (.wrScy 0x03) ∧ decodeTableWord 32 0x1FF471B = some (.wrBgp 0x1B) ∧
    decodeTableWord 32 0x0FF4100 = some .rdStat ∧ decodeTableWord 32 0x0FF4400 = some .rdLy ∧
    decodeTableWord 32 0x1FF4400 = none ∧ decodeTableWord 8 1 = some (.tick 0 true)

/-! ## Register writes and reads -/

/-- R90: write-control sets the eight control flags from the eight bits and changes nothing else. Bits 0, 4 and 7 are the
source's; the places of the other five are the spec's decision D4. -/
def Obligations.WriteControlSetsTheEightFlags : Prop :=
  ∀ (data : Byte) (s : State),
    exec (.wrLcdc data) s = .next { s with reg := { s.reg with
      bgEnabled := data.getLsbD 0, spritesEnabled := data.getLsbD 1, spriteSize := data.getLsbD 2
      tilemapSelect := data.getLsbD 3, bgTiledataSelect := data.getLsbD 4, windowEnabled := data.getLsbD 5
      windowTilemapSelect := data.getLsbD 6, lcdEnabled := data.getLsbD 7 } }

/-- R90's round trip, §8: the map from the control byte to the eight flags is a bijection: two bytes that leave the same state
are equal, and every choice of the eight flags is left by some byte. -/
def Obligations.ControlByteRoundTrips : Prop :=
  (∀ (d e : Byte) (s : State), (∃ t, exec (.wrLcdc d) s = .next t ∧ exec (.wrLcdc e) s = .next t) → d = e) ∧
  ∀ (r : Regs) (s : State), ∃ (data : Byte) (t : State), exec (.wrLcdc data) s = .next t ∧
    t.reg.bgEnabled = r.bgEnabled ∧ t.reg.spritesEnabled = r.spritesEnabled ∧ t.reg.spriteSize = r.spriteSize ∧
    t.reg.tilemapSelect = r.tilemapSelect ∧ t.reg.bgTiledataSelect = r.bgTiledataSelect ∧
    t.reg.windowEnabled = r.windowEnabled ∧ t.reg.windowTilemapSelect = r.windowTilemapSelect ∧
    t.reg.lcdEnabled = r.lcdEnabled

/-- R91: write-status stores bits 6, 5, 4, 3 in the four enables and changes nothing else; it emits nothing. The bits' places
are the spec's decision D5. -/
def Obligations.WriteStatusSetsTheFourEnables : Prop :=
  ∀ (data : Byte) (s : State),
    exec (.wrStat data) s = .next { s with reg := { s.reg with
      lyInt := data.getLsbD 6, oamInt := data.getLsbD 5, vblankInt := data.getLsbD 4, hblankInt := data.getLsbD 3 } }

/-- R64 (of the writes R92 to R96 and the read R103): each of the five position and compare writes stores the byte unchanged
in its own register and changes nothing else; read-line-compare answers the stored compare value, changes nothing else, and so
returns the last byte written. -/
def Obligations.ByteRegistersStoreTheByteUnchanged : Prop :=
  ∀ (data : Byte) (s : State),
    exec (.wrScx data) s = .next { s with reg := { s.reg with scrollX := data } } ∧
    exec (.wrScy data) s = .next { s with reg := { s.reg with scrollY := data } } ∧
    exec (.wrWx data) s = .next { s with reg := { s.reg with windowX := data } } ∧
    exec (.wrWy data) s = .next { s with reg := { s.reg with windowY := data } } ∧
    exec (.wrLyc data) s = .next { s with reg := { s.reg with lineCompare := data } } ∧
    exec .rdLyc s = .next { s with outputs := .read s.reg.lineCompare :: s.outputs } ∧
    ∀ t, exec (.wrLyc data) s = .next t → exec .rdLyc t = .next { t with outputs := .read data :: t.outputs }

/-- R65, R70 (of the writes R97, R98, R99): a palette write stores entry i as the number data / 4^i mod 4, entry 0 of a sprite
palette as 0, in its own table, and changes nothing else. -/
def Obligations.PaletteWritesUnpackLowToHigh : Prop :=
  ∀ (data : Byte) (s : State),
    (∃ p : Quad Shade, exec (.wrBgp data) s = .next { s with reg := { s.reg with bgPalette := p } } ∧
      p.e0.toNat = data.toNat % 4 ∧ p.e1.toNat = data.toNat / 4 % 4 ∧ p.e2.toNat = data.toNat / 16 % 4 ∧
      p.e3.toNat = data.toNat / 64) ∧
    (∃ p : Quad Shade, exec (.wrObp0 data) s = .next { s with reg := { s.reg with objPalette1 := p } } ∧
      p.e0 = 0 ∧ p.e1.toNat = data.toNat / 4 % 4 ∧ p.e2.toNat = data.toNat / 16 % 4 ∧ p.e3.toNat = data.toNat / 64) ∧
    (∃ p : Quad Shade, exec (.wrObp1 data) s = .next { s with reg := { s.reg with objPalette2 := p } } ∧
      p.e0 = 0 ∧ p.e1.toNat = data.toNat / 4 % 4 ∧ p.e2.toNat = data.toNat / 16 % 4 ∧ p.e3.toNat = data.toNat / 64)

/-- R101: read-status answers the byte whose bit 7 is 1, bits 6 to 3 the enables, bit 2 the coincidence of the latched line and
the compare value, bits 1:0 the mode's number, and changes nothing else. The bits' places are D5, the latched values D13. -/
def Obligations.ReadStatusComposesTheByte : Prop :=
  ∀ s : State, ∃ v : Byte, exec .rdStat s = .next { s with outputs := .read v :: s.outputs } ∧
    v.getLsbD 7 = true ∧ v.getLsbD 6 = s.reg.lyInt ∧ v.getLsbD 5 = s.reg.oamInt ∧ v.getLsbD 4 = s.reg.vblankInt ∧
    v.getLsbD 3 = s.reg.hblankInt ∧ (v.getLsbD 2 = true ↔ s.reg.currentLine = s.reg.lineCompare) ∧
    v.toNat % 4 = (match s.reg.lcdMode with | .hblank => 0 | .vblank => 1 | .oamSearch => 2 | .pixelTransfer => 3)

/-- R66, R102: read-line answers the line register, and changes nothing else; in every state that meets the invariant the byte
is at most 153. That the register is the one the latest tick latched is the spec's decision D13. -/
def Obligations.ReadLineAnswersTheLatchedLine : Prop :=
  ∀ s : State, exec .rdLy s = .next { s with outputs := .read s.reg.currentLine :: s.outputs } ∧
    (s.Inv → s.reg.currentLine.toNat ≤ 153)

/-- R100: a register operation completes; a write emits nothing (no request, no byte), renders nothing and touches none of the
four timing fields; a read changes no register; none depends on the raster mode: from a state that differs in the mode alone it
leaves the state that differs in the mode alone (but read-status, whose byte holds the mode). -/
def Obligations.RegisterOperationsHaveNoSideEffect : Prop :=
  ∀ (i : Instr) (s : State), (∀ cycles closeReq, i ≠ .tick cycles closeReq) →
    ∃ t, exec i s = .next t ∧ t = { s with reg := t.reg, outputs := t.outputs } ∧
      t.reg.currentLine = s.reg.currentLine ∧ t.reg.lcdMode = s.reg.lcdMode ∧ t.reg.prevLine = s.reg.prevLine ∧
      t.reg.prevMode = s.reg.prevMode ∧
      ((i ≠ .rdStat ∧ i ≠ .rdLy ∧ i ≠ .rdLyc → t.outputs = s.outputs) ∧
        (i = .rdStat ∨ i = .rdLy ∨ i = .rdLyc → t.reg = s.reg ∧ ∃ v, t.outputs = .read v :: s.outputs)) ∧
      (i ≠ .rdStat → ∀ mode : Mode, exec i { s with reg := { s.reg with lcdMode := mode } } =
        .next { t with reg := { t.reg with lcdMode := mode } })

/-- R46: register writes are idempotent and put out nothing, and a read leaves every later read of it the same byte. -/
def Obligations.RegisterOperationsAreIdempotent : Prop :=
  ∀ (i : Instr) (s t : State), (∀ cycles closeReq, i ≠ .tick cycles closeReq) → exec i s = .next t →
    ∃ u, exec i t = .next u ∧ u.reg = t.reg ∧ u.fb = t.fb ∧ u.mem = t.mem ∧ u.cfg = t.cfg ∧
      (i = .rdStat ∨ i = .rdLy ∨ i = .rdLyc →
        ∃ v, t.outputs = .read v :: s.outputs ∧ u.outputs = .read v :: t.outputs) ∧
      (i ≠ .rdStat ∧ i ≠ .rdLy ∧ i ≠ .rdLyc → t.outputs = s.outputs ∧ u.outputs = t.outputs)

/-- R11's column "written by" and R104: a register field changes only by the operation named for it; so no bus access changes
`current_line`. -/
def Obligations.FieldsChangeOnlyByTheirOwnOperation : Prop :=
  ∀ (i : Instr) (s t : State), exec i s = .next t →
    ((∀ d, i ≠ .wrLcdc d) → t.reg.bgEnabled = s.reg.bgEnabled ∧ t.reg.spritesEnabled = s.reg.spritesEnabled ∧
      t.reg.spriteSize = s.reg.spriteSize ∧ t.reg.tilemapSelect = s.reg.tilemapSelect ∧
      t.reg.bgTiledataSelect = s.reg.bgTiledataSelect ∧ t.reg.windowEnabled = s.reg.windowEnabled ∧
      t.reg.windowTilemapSelect = s.reg.windowTilemapSelect ∧ t.reg.lcdEnabled = s.reg.lcdEnabled) ∧
    ((∀ d, i ≠ .wrStat d) → t.reg.lyInt = s.reg.lyInt ∧ t.reg.oamInt = s.reg.oamInt ∧
      t.reg.vblankInt = s.reg.vblankInt ∧ t.reg.hblankInt = s.reg.hblankInt) ∧
    ((∀ d, i ≠ .wrScx d) → t.reg.scrollX = s.reg.scrollX) ∧ ((∀ d, i ≠ .wrScy d) → t.reg.scrollY = s.reg.scrollY) ∧
    ((∀ d, i ≠ .wrWx d) → t.reg.windowX = s.reg.windowX) ∧ ((∀ d, i ≠ .wrWy d) → t.reg.windowY = s.reg.windowY) ∧
    ((∀ d, i ≠ .wrLyc d) → t.reg.lineCompare = s.reg.lineCompare) ∧
    ((∀ d, i ≠ .wrBgp d) → t.reg.bgPalette = s.reg.bgPalette) ∧
    ((∀ d, i ≠ .wrObp0 d) → t.reg.objPalette1 = s.reg.objPalette1) ∧
    ((∀ d, i ≠ .wrObp1 d) → t.reg.objPalette2 = s.reg.objPalette2) ∧
    ((∀ c, i ≠ .tick c false) → t.reg.currentLine = s.reg.currentLine ∧ t.reg.lcdMode = s.reg.lcdMode ∧
      t.reg.prevLine = s.reg.prevLine ∧ t.reg.prevMode = s.reg.prevMode ∧ t.fb = s.fb)

/-! ## The tick: line, mode, events -/

/-- R120, D21: a tick with a close request returns STOP and changes nothing at all. -/
def Obligations.StoppedTickChangesNothing : Prop :=
  ∀ (cycles : Nat) (s : State), exec (.tick cycles true) s = .next { s with outputs := .tick .stop [] :: s.outputs }

/-- R112, R113, R119: a tick that is not stopped answers CONTINUE and leaves the line (cycles mod 17556) / 114, at most 153, and
the mode of R113 in the latched fields and in the fields kept for the next tick, which therefore agree; every other register,
the memory, the configuration and the pending inputs are as before. -/
def Obligations.TickLatchesLineAndMode : Prop :=
  ∀ (cycles : Nat) (s : State), ∃ t events, exec (.tick cycles false) s = .next t ∧
    t.outputs = .tick .cont events :: s.outputs ∧ t.reg.currentLine.toNat = cycles % 17556 / 114 ∧
    cycles % 17556 ≤ 17555 ∧ cycles % 17556 / 114 ≤ 153 ∧ cycles % 17556 % 114 ≤ 113 ∧
    t.reg.lcdMode = (if 144 ≤ cycles % 17556 / 114 then Mode.vblank
      else if cycles % 17556 % 114 < 20 then .oamSearch
      else if cycles % 17556 % 114 < 63 then .pixelTransfer
      else .hblank) ∧
    t = { s with
      reg := { s.reg with
        currentLine := t.reg.currentLine, lcdMode := t.reg.lcdMode, prevLine := t.reg.currentLine, prevMode := t.reg.lcdMode }
      fb := t.fb
      outputs := t.outputs }

/-- R114: the mode map: at position p of line l of any frame f, a tick leaves line l and the mode that the map gives. -/
def Obligations.ModeMapByLineAndPosition : Prop :=
  ∀ (f l p : Nat) (s : State), l < 154 → p < 114 →
    ∃ t, exec (.tick (17556 * f + 114 * l + p) false) s = .next t ∧ t.reg.currentLine.toNat = l ∧
      (t.reg.lcdMode = .oamSearch ↔ l ≤ 143 ∧ p ≤ 19) ∧ (t.reg.lcdMode = .pixelTransfer ↔ l ≤ 143 ∧ 20 ≤ p ∧ p ≤ 62) ∧
      (t.reg.lcdMode = .hblank ↔ l ≤ 143 ∧ 63 ≤ p) ∧ (t.reg.lcdMode = .vblank ↔ 144 ≤ l)

/-- R115, R117, R196, R51: the events of a tick that is not stopped, in order: one LCD-STAT request when the coincidence or one
of the three mode entries holds with its enable, and never a second; then, exactly at the step from line 143 to line 144,
`present()` and the V-blank request, whatever the enables. -/
def Obligations.TickEmitsExactlyItsEvents : Prop :=
  ∀ (cycles : Nat) (s : State), ∃ t stat frame, exec (.tick cycles false) s = .next t ∧
    t.outputs = .tick .cont (stat ++ frame) :: s.outputs ∧
    ((s.reg.lyInt = true ∧ cycles % 17556 / 114 = s.reg.lineCompare.toNat) ∨
      (s.reg.hblankInt = true ∧ t.reg.lcdMode = .hblank ∧ s.reg.prevMode ≠ .hblank) ∨
      (s.reg.vblankInt = true ∧ t.reg.lcdMode = .vblank ∧ s.reg.prevMode ≠ .vblank) ∨
      (s.reg.oamInt = true ∧ t.reg.lcdMode = .oamSearch ∧ s.reg.prevMode ≠ .oamSearch) →
        stat = [.request .lcdStat]) ∧
    (¬((s.reg.lyInt = true ∧ cycles % 17556 / 114 = s.reg.lineCompare.toNat) ∨
      (s.reg.hblankInt = true ∧ t.reg.lcdMode = .hblank ∧ s.reg.prevMode ≠ .hblank) ∨
      (s.reg.vblankInt = true ∧ t.reg.lcdMode = .vblank ∧ s.reg.prevMode ≠ .vblank) ∨
      (s.reg.oamInt = true ∧ t.reg.lcdMode = .oamSearch ∧ s.reg.prevMode ≠ .oamSearch)) → stat = []) ∧
    (s.reg.prevLine.toNat = 143 ∧ cycles % 17556 / 114 = 144 → frame = [.present, .request .vblank]) ∧
    (¬(s.reg.prevLine.toNat = 143 ∧ cycles % 17556 / 114 = 144) → frame = [])

/-- R195, R115 corner case 2: an entry that falls on a tick of the coincidence line is requested neither there nor at a next
tick in the same mode: there the one request is the coincidence's, and the next tick, off the coincidence line, requests no
LCD-STAT at all. -/
def Obligations.EntryHiddenByCoincidenceIsLost : Prop :=
  ∀ (c₁ c₂ : Nat) (s : State), s.reg.lyInt = true → c₁ % 17556 / 114 = s.reg.lineCompare.toNat →
    c₂ % 17556 / 114 ≠ s.reg.lineCompare.toNat → modeOf c₂ = modeOf c₁ →
    ∃ t u, exec (.tick c₁ false) s = .next t ∧ exec (.tick c₂ false) t = .next u ∧
      eventCount (.request .lcdStat) t.outputs = eventCount (.request .lcdStat) s.outputs + 1 ∧
      eventCount (.request .lcdStat) u.outputs = eventCount (.request .lcdStat) t.outputs

/-- R121: of two ticks at one counter value the second renders nothing, presents nothing, changes no register, and requests
LCD-STAT exactly when the coincidence condition holds. -/
def Obligations.SecondTickAtOneCounterValue : Prop :=
  ∀ (cycles : Nat) (s t : State), exec (.tick cycles false) s = .next t →
    exec (.tick cycles false) t = .next (record (.tick .cont
      (if s.reg.lyInt = true ∧ cycles % 17556 / 114 = s.reg.lineCompare.toNat then [.request .lcdStat] else [])) t)

/-- R116: a tick that is not stopped renders its line exactly when the line changed and is visible: then that row is what the
background and window pass and after it the sprite pass make of it, and every other row is as before; otherwise the framebuffer
is as before. In every state whose framebuffer is in its canonical form. -/
def Obligations.TickRendersTheChangedVisibleLine : Prop :=
  ∀ (cycles : Nat) (s : State), s.fb.wf → ∃ t, exec (.tick cycles false) s = .next t ∧ t.fb.wf ∧
    (cycles % 17556 / 114 ≠ s.reg.prevLine.toNat ∧ cycles % 17556 / 114 < 144 →
      fbRow t.fb (cycles % 17556 / 114) =
        renderSprites s.cfg s.reg s.mem (cycles % 17556 / 114)
          (renderBackground s.cfg s.reg s.mem (cycles % 17556 / 114) (fbRow s.fb (cycles % 17556 / 114))) ∧
      ∀ row, row ≠ cycles % 17556 / 114 → fbRow t.fb row = fbRow s.fb row) ∧
    (¬(cycles % 17556 / 114 ≠ s.reg.prevLine.toNat ∧ cycles % 17556 / 114 < 144) → t.fb = s.fb)

/-- R118, R203: the tick that presents a frame renders nothing: the framebuffer presented is the one left by earlier ticks. -/
def Obligations.PresentedFrameIsLeftByEarlierTicks : Prop :=
  ∀ (cycles : Nat) (s t : State) (events : List Event), exec (.tick cycles false) s = .next t →
    t.outputs = .tick .cont events :: s.outputs → .present ∈ events →
      t.fb = s.fb ∧ .request .vblank ∈ events ∧ t.reg.currentLine.toNat = 144

/-- R25 (g), R47, R232: a step changes a framebuffer row only if it is an unstopped tick's own visible line, in every state. -/
def Obligations.OnlyTheTicksOwnRowChanges : Prop :=
  ∀ (s t : State) (row : Nat), step s = .next t → fbRow t.fb row ≠ fbRow s.fb row →
    row < 144 ∧ t.reg.currentLine.toNat = row ∧ s.reg.prevLine.toNat ≠ row ∧
      ∃ cycles rest, s.pending = .operation (.tick cycles false) :: rest ∧ cycles % 17556 / 114 = row

/-! ## Runs of ticks -/

/-- R230 (a), R116: when the counter advances by at most 114 from tick to tick, the ticks that meet R116's condition fall on
every visible line, once per frame and in order: their lines are the numbers of the visible lines that begin meanwhile, modulo
144. `renderedLines` reads the condition and not the framebuffer; that a tick which meets it renders its row is
TickRendersTheChangedVisibleLine, and what a run then leaves in each row is RunLeavesTheRowsItsTicksRender. -/
def Obligations.EveryVisibleLineIsRenderedInOrder : Prop :=
  ∀ (cs : List Nat) (c : Nat) (s : State), strided 114 c cs = true → s.reg.prevLine.toNat = c % 17556 / 114 →
    ∃ t, execTicks cs s = .next t ∧
      renderedLines cs s =
        (List.range' (visibleLinesBegun c + 1) (visibleLinesBegun (cs.getLastD c) - visibleLinesBegun c)).map (· % 144)

/-- R230 (a), R117: when the counter advances by at most 114 from tick to tick, one frame is presented and one V-blank requested
for each step from line 143 to line 144, and no more. -/
def Obligations.EveryFrameBoundaryIsSeenOnce : Prop :=
  ∀ (cs : List Nat) (c : Nat) (s : State), strided 114 c cs = true → s.reg.prevLine.toNat = c % 17556 / 114 →
    ∃ t, execTicks cs s = .next t ∧
      eventCount .present t.outputs =
        eventCount .present s.outputs + (boundariesPassed (cs.getLastD c) - boundariesPassed c) ∧
      eventCount (.request .vblank) t.outputs =
        eventCount (.request .vblank) s.outputs + (boundariesPassed (cs.getLastD c) - boundariesPassed c)

/-- R230 (b) and (c), R115: with one mode enable set and no other enable, the number of LCD-STAT requests is the number of
H-blanks begun when the advance is at most 51, of OAM searches begun when it is at most 20. -/
def Obligations.EveryModeEntryIsRequestedOnce : Prop :=
  ∀ (cs : List Nat) (c : Nat) (s : State), s.reg.prevMode = modeOf c → s.reg.lyInt = false → s.reg.vblankInt = false →
    (strided 51 c cs = true → s.reg.hblankInt = true → s.reg.oamInt = false →
      ∃ t, execTicks cs s = .next t ∧ eventCount (.request .lcdStat) t.outputs =
        eventCount (.request .lcdStat) s.outputs + (hblanksBegun (cs.getLastD c) - hblanksBegun c)) ∧
    (strided 20 c cs = true → s.reg.hblankInt = false → s.reg.oamInt = true →
      ∃ t, execTicks cs s = .next t ∧ eventCount (.request .lcdStat) t.outputs =
        eventCount (.request .lcdStat) s.outputs + (oamSearchesBegun (cs.getLastD c) - oamSearchesBegun c))

/-- R122: one frame at stride 1, from the state a preceding frame leaves: the ticks that meet R116's condition fall on the 144
visible lines in line order (`renderedLines` reads the condition; that such a tick renders is TickRendersTheChangedVisibleLine,
and what the run leaves is RunLeavesTheRowsItsTicksRender), one presentation and one V-blank request; and, by the one enable that is set, 144, 144, 1 or 114 LCD-STAT requests (none when the
compare value is above 153). -/
def Obligations.OneFrameAtStrideOne : Prop :=
  ∀ (f : Nat) (s : State), s.reg.prevLine = 153 → s.reg.prevMode = .vblank →
    ∃ t, execTicks (List.range' (17556 * f) 17556) s = .next t ∧
      renderedLines (List.range' (17556 * f) 17556) s = List.range 144 ∧
      eventCount .present t.outputs = eventCount .present s.outputs + 1 ∧
      eventCount (.request .vblank) t.outputs = eventCount (.request .vblank) s.outputs + 1 ∧
      (s.reg.lyInt = false → s.reg.hblankInt = false → s.reg.vblankInt = false → s.reg.oamInt = true →
        eventCount (.request .lcdStat) t.outputs = eventCount (.request .lcdStat) s.outputs + 144) ∧
      (s.reg.lyInt = false → s.reg.hblankInt = true → s.reg.vblankInt = false → s.reg.oamInt = false →
        eventCount (.request .lcdStat) t.outputs = eventCount (.request .lcdStat) s.outputs + 144) ∧
      (s.reg.lyInt = false → s.reg.hblankInt = false → s.reg.vblankInt = true → s.reg.oamInt = false →
        eventCount (.request .lcdStat) t.outputs = eventCount (.request .lcdStat) s.outputs + 1) ∧
      (s.reg.lyInt = true → s.reg.hblankInt = false → s.reg.vblankInt = false → s.reg.oamInt = false →
        eventCount (.request .lcdStat) t.outputs =
          eventCount (.request .lcdStat) s.outputs + (if s.reg.lineCompare.toNat ≤ 153 then 114 else 0))

/-! ## Rendering: background and window -/

/-- R150, R153 to R158 with R151's window test (D15, D16), D6, D7, D19, D29: after the pass every one of the 160 pixels of a
line that has a window or an enabled background holds the colour that the rules compute for it. -/
def Obligations.BackgroundAndWindowPixels : Prop :=
  ∀ (c : Cfg) (r : Regs) (m : Memory) (line : Nat) (row : Row) (x : Nat), row.length = 160 → x < 160 →
    (r.windowEnabled = true ∧ r.windowY.toNat ≤ line) ∨ r.bgEnabled = true →
    let window : Prop := r.windowEnabled = true ∧ r.windowY.toNat ≤ line
    let base : Nat := if (if window then r.windowTilemapSelect else r.tilemapSelect) = true then c.mapBase1 else c.mapBase0
    let tx : Nat := if window then x else (x + r.scrollX.toNat) % 256
    let ty : Nat := if window then line - r.windowY.toNat else (line + r.scrollY.toNat) % 256
    let idx : Byte := memRead m (base + ty / 8 * 32 + tx / 8 : Nat)
    let tile : Int := if r.bgTiledataSelect = true then (c.tileBaseUnsigned : Int) + idx.toNat * 16
      else (c.tileBaseSigned : Int) + (if idx.toNat < 128 then (idx.toNat : Int) else idx.toNat - 256) * 16
    let byte1 : Byte := memRead m (tile + 2 * (ty % 8 : Nat))
    let byte2 : Byte := memRead m (tile + 2 * (ty % 8 : Nat) + 1)
    let ci : Shade := BitVec.ofBool (byte2.getLsbD (7 - tx % 8)) ++ BitVec.ofBool (byte1.getLsbD (7 - tx % 8))
    rowCell (renderBackground c r m line row) x = some (quadGet c.shadeRgb (quadGet r.bgPalette ci))

/-- R152, D17: with no window on the line and the background disabled, column 0 gets the colour of background index 0; the
other columns keep what they held when `BG_DISABLED_ABORT` is set, and get that colour too when it is not. -/
def Obligations.BackgroundDisabledLine : Prop :=
  ∀ (c : Cfg) (r : Regs) (m : Memory) (line : Nat) (row : Row) (x : Nat), row.length = 160 → x < 160 →
    ¬(r.windowEnabled = true ∧ r.windowY.toNat ≤ line) → r.bgEnabled = false →
    rowCell (renderBackground c r m line row) x =
      if x = 0 ∨ c.bgDisabledAbort = false then some (quadGet c.shadeRgb r.bgPalette.e0) else rowCell row x

/-! ## Rendering: sprites -/

/-- R142: the list holds the first ten matching slots in ascending slot number, or all when fewer than eleven match. -/
def Obligations.FirstTenMatchingSlotsInOrder : Prop :=
  ∀ (c : Cfg) (r : Regs) (m : Memory) (line : Nat),
    selectSprites c r m line = (((List.range 40).map (readSlot c m)).filter (onLine r line)).take 10 ∧
    (selectSprites c r m line).length ≤ 10 ∧ (selectSprites c r m line).Pairwise (fun p q => p.slot < q.slot)

/-- R140, R141, R143, R67, R72: the sprites of a line are the first ten, in slot order, of the slots whose stored y is above
line + 16 − height and at most line + 16; nothing but the stored y and the size is looked at. A slot's descriptor takes y from
byte 0 less 16, x from byte 1 less the x offset, the tile index from byte 2 and the flags from byte 3. The slot's layout is D8
(log entry 12), the offset D9 (log entry 1), the integer comparison D25. -/
def Obligations.SelectionIsTheFirstTenOnTheLine : Prop :=
  ∀ (c : Cfg) (r : Regs) (m : Memory) (line : Nat),
    selectSprites c r m line =
      (((List.range 40).filter fun i =>
        decide (line + 16 < (memRead m (c.oamBase + c.oamEntryBytes * i : Nat)).toNat + (if r.spriteSize then 16 else 8)) &&
          decide ((memRead m (c.oamBase + c.oamEntryBytes * i : Nat)).toNat ≤ line + 16)).take 10).map (readSlot c m) ∧
    ∀ i : Nat,
      (readSlot c m i).y = ((memRead m (c.oamBase + c.oamEntryBytes * i : Nat)).toNat : Int) - 16 ∧
      (readSlot c m i).x = ((memRead m (c.oamBase + c.oamEntryBytes * i + 1 : Nat)).toNat : Int) - c.spriteXOffset ∧
      (readSlot c m i).tileIndex = memRead m (c.oamBase + c.oamEntryBytes * i + 2 : Nat) ∧
      (readSlot c m i).flags = memRead m (c.oamBase + c.oamEntryBytes * i + 3 : Nat) ∧ (readSlot c m i).slot = i

/-- R144: the orderer returns a permutation of its list in which, of any two descriptors, the earlier has the greater x, or the
same x and the lower slot; for every list in ascending slot order, as the selector's is. -/
def Obligations.OrdererSortsStablyByDescendingX : Prop :=
  ∀ l : List Descriptor, l.Pairwise (fun p q => p.slot < q.slot) →
    (orderSprites l).Perm l ∧ (orderSprites l).Pairwise (fun p q => q.x < p.x ∨ (p.x = q.x ∧ p.slot < q.slot))

/-- R170 to R177: after the sprite pass each of the 160 pixels holds what the ordered sprites, one after the other, make of what
it held; a pixel that no sprite covers opaquely keeps what it held. It rests on the spec's decisions D8, D9, D19, D20 (log
entries 1, 12) and D18 (log entry 14), and for the direction of the priority test on its resolution C8 (log entry 15). -/
def Obligations.SpritePassPixelByPixel : Prop :=
  ∀ (c : Cfg) (r : Regs) (m : Memory) (line : Nat) (row : Row) (px : Nat), row.length = 160 → px < 160 →
    rowCell (renderSprites c r m line row) px =
      if c.spritesEnableGates = true ∧ r.spritesEnabled = false then rowCell row px
      else (orderSprites (selectSprites c r m line)).foldl (spriteOver c r m line px) (rowCell row px)

/-- R145, C1 (log entry 15): of the selected sprites that are opaque at a pixel, the one with the smallest x, and among equal x
the highest slot, shows there if it has no background-priority flag, whatever lies below it. That the pass runs is D18 (log
entry 14); the colour of a sprite rests on D8, D9, D19, D20 (log entries 1, 12). -/
def Obligations.FrontSpriteShows : Prop :=
  ∀ (c : Cfg) (r : Regs) (m : Memory) (line : Nat) (row : Row) (px : Nat) (d : Descriptor) (colour : Colour),
    row.length = 160 → px < 160 → spritesRun c r → d ∈ selectSprites c r m line → d.flags.getLsbD 7 = false →
    spriteColourAt c r m line d px = some colour →
    (∀ e ∈ selectSprites c r m line, e ≠ d → (spriteColourAt c r m line e px).isSome = true →
      d.x < e.x ∨ (d.x = e.x ∧ e.slot < d.slot)) →
    rowCell (renderSprites c r m line row) px = some colour

/-- R176, C8 (log entry 15): where one background-priority sprite alone is opaque, it is drawn exactly if the pixel shows the
colour of background index 0, and otherwise the pixel stays as it was. A pixel that nothing has written shows the free value of
log entry 2. That the pass runs is D18 (log entry 14); the flag's bit and the sprite's colour rest on D8, D9, D19, D20 (log
entries 1, 12). -/
def Obligations.PrioritySpriteShowsOverBackgroundZeroOnly : Prop :=
  ∀ (c : Cfg) (r : Regs) (m : Memory) (line : Nat) (row : Row) (px : Nat) (d : Descriptor) (colour : Colour),
    row.length = 160 → px < 160 → spritesRun c r → d ∈ selectSprites c r m line → d.flags.getLsbD 7 = true →
    spriteColourAt c r m line d px = some colour →
    (∀ e ∈ selectSprites c r m line, e ≠ d → spriteColourAt c r m line e px = none) →
    ((rowCell row px).getD (Config.fbAtReset line px) = quadGet c.shadeRgb r.bgPalette.e0 →
      rowCell (renderSprites c r m line row) px = some colour) ∧
    ((rowCell row px).getD (Config.fbAtReset line px) ≠ quadGet c.shadeRgb r.bgPalette.e0 →
      rowCell (renderSprites c r m line row) px = rowCell row px)

/-- R171, R174: a sprite of signed x draws only at the columns from x on, eight of them, within 0 to 159: in particular (§8's
scenario) at x = −3 the visible columns are 3 to 7. R67, R72, R77: for a descriptor read from its slot at the default offset 8
(D9, log entry 1), stored x 0 or 168 and above draws nothing; that the stored x is byte 1 of the slot is D8 (log entry 12). -/
def Obligations.SpriteColumnsAreClipped : Prop :=
  ∀ (c : Cfg) (r : Regs) (m : Memory) (line : Nat) (row : Row) (d : Descriptor) (px : Nat), row.length = 160 →
    rowCell (drawSprite c r m line row d) px ≠ rowCell row px →
      px < 160 ∧ d.x ≤ px ∧ (px : Int) ≤ d.x + 7 ∧ -7 ≤ d.x ∧
        (c.spriteXOffset = 8 → d = readSlot c m d.slot →
          1 ≤ (memRead m (slotAddr c d.slot 1)).toNat ∧ (memRead m (slotAddr c d.slot 1)).toNat ≤ 167)

/-! ## What nothing reads -/

/-- R13, R15, R207, D16: the display enable and `window_x` have no effect: runs of the same inputs from two states that differ at
most in them put out the same and leave states that differ at most in them. -/
def Obligations.DisplayEnableAndWindowXHaveNoEffect : Prop :=
  ∀ (k : Nat) (s t : State), SameButUnreadRegs s t →
    outcomesRelated SameButUnreadRegs (runSteps k s) (runSteps k t)

/-- R192: what was put out is forgotten by the block: runs from two states that differ only in the history of outputs put out the
same new outputs and otherwise agree. -/
def Obligations.OutputsAreNeverRead : Prop :=
  ∀ (k : Nat) (s : State) (history : List Output),
    outcomesRelated
      (fun s' t' => t' = { s' with outputs := t'.outputs } ∧
        ∃ new, s'.outputs = new ++ s.outputs ∧ t'.outputs = new ++ history)
      (runSteps k s) (runSteps k { s with outputs := history })

/-- R43, R55: the block reads nothing outside its tables: an operation at a memory that agrees with another on the tables'
addresses does the same as at that other. The slot size of 4 bytes is D8. -/
def Obligations.OnlyTheTablesAreRead : Prop :=
  ∀ (i : Instr) (s t : State) (m : Memory), s.cfg.oamEntryBytes = 4 →
    (∀ a : Int, tableAddress s.cfg a → memRead m a = memRead s.mem a) → exec i s = .next t →
      exec i { s with mem := m } = .next { t with mem := m }

/-! ## Invariants and reset -/

/-- R25 (a), (f), (g) at reset: the default reset record's values are the spec's own choice D12 (log entry 3), the empty memory
log entry 4. -/
def Obligations.InvariantHoldsAtReset : Prop := State.reset.Inv ∧ State.reset.Settled

/-- R25 (a), (f), (g): every step keeps: line fields at most 153, entry 0 of each sprite palette 0, the framebuffer's pixels in
rows 0 to 143 and columns 0 to 159, memory and framebuffer in canonical form. -/
def Obligations.EveryStepKeepsTheInvariant : Prop :=
  ∀ s t : State, s.Inv → step s = .next t → t.Inv

/-- R25 (b), (c): every tick that is not stopped establishes, from any state, that the mode is V-blank exactly from line 144 on
and that the latched pair is the pair kept for edge detection; every step keeps it. -/
def Obligations.TicksSettleModeAndEdgeFields : Prop :=
  (∀ (cycles : Nat) (s : State), ∃ t, exec (.tick cycles false) s = .next t ∧ t.Settled) ∧
  ∀ s t : State, s.Settled → step s = .next t → t.Settled

/-- R220: reset gives every register the value of `Cfg.RESET`, emits nothing and leaves no pixel written (each shows the free
value of log entry 2); R24: the default record is all zero and false, field by field, by the spec's own choice D12 (log entry 3),
so that status reads 0x84. -/
def Obligations.ResetLeavesTheResetRecord : Prop :=
  (∀ c : Cfg, (State.resetOf c).reg = c.reset ∧ (State.resetOf c).cfg = c ∧ (State.resetOf c).outputs = [] ∧
    ∀ row col, fbPixel (State.resetOf c).fb row col = Config.fbAtReset row col) ∧
  State.reset.reg =
    { bgEnabled := false, spritesEnabled := false, spriteSize := false, tilemapSelect := false, bgTiledataSelect := false
      windowEnabled := false, windowTilemapSelect := false, lcdEnabled := false
      lyInt := false, oamInt := false, vblankInt := false, hblankInt := false
      scrollX := 0, scrollY := 0, windowX := 0, windowY := 0, lineCompare := 0
      bgPalette := ⟨0, 0, 0, 0⟩, objPalette1 := ⟨0, 0, 0, 0⟩, objPalette2 := ⟨0, 0, 0, 0⟩
      currentLine := 0, lcdMode := .hblank, prevLine := 0, prevMode := .hblank } ∧
  statusByte State.reset.reg = 0x84

/-- R221, R231: after the default reset (D12, log entry 3) a first tick on line 0 renders nothing and requests nothing; a first
tick on another visible line renders it, requesting nothing. That column 0 then holds 0xFFFFFF is the default colour of shade 0
(D10, log entry 1), and that no other column is written is the abort parameter's default (D17, log entry 14). -/
def Obligations.FirstTickAfterReset : Prop :=
  ∀ cycles : Nat, ∃ t, exec (.tick cycles false) State.reset = .next t ∧ t.outputs = [.tick .cont []] ∧
    (cycles % 17556 / 114 = 0 → t.fb = []) ∧
    (0 < cycles % 17556 / 114 → cycles % 17556 / 114 < 144 →
      rowCell (fbRow t.fb (cycles % 17556 / 114)) 0 = some 0xFFFFFF ∧
        ∀ x, 0 < x → rowCell (fbRow t.fb (cycles % 17556 / 114)) x = none)

/-! ## What a run of ticks leaves in the framebuffer -/

/-- R116, R232: after ticks at any counter values every row holds what the passes over it, once for each time the run renders
that line and in that order, make of what it held; a row that the run does not render keeps its pixels. From every state whose
framebuffer is in its canonical form. So the lines that `renderedLines` lists are the lines whose rows the run renders. -/
def Obligations.RunLeavesTheRowsItsTicksRender : Prop :=
  ∀ (cs : List Nat) (s : State), s.fb.wf → ∃ t, execTicks cs s = .next t ∧ t.fb.wf ∧
    ∀ row, fbRow t.fb row = (renderedLines cs s).foldl
      (fun pixels line => if line = row then
        renderSprites s.cfg s.reg s.mem line (renderBackground s.cfg s.reg s.mem line pixels) else pixels)
      (fbRow s.fb row)
end

