-- ==== Sys2Proof/Laws/Bus.lean ====
section
/-!
SUPPORT. The fields of a bus word put together are the fields it was made of (R61).
-/

namespace Sys2Proof

/-- Each bit of a bus word: the data below bit 8, the address below bit 24, the direction at bit 24. -/
theorem getLsbD_busWord (write : Bool) (addr : Addr) (data : Byte) (i : Nat) :
    (busWord write addr data).getLsbD i =
      if i < 8 then data.getLsbD i else if i < 24 then addr.getLsbD (i - 8) else (decide (i = 24) && write) := by
  show BitVec.getLsbD (w := 1 + 16 + 8) (BitVec.ofBool write ++ addr ++ data) i = _
  rw [BitVec.getLsbD_append, BitVec.getLsbD_append]
  by_cases h1 : i < 8
  · simp [h1]
  · by_cases h2 : i < 24
    · simp [h1, h2, show i - 8 < 16 by omega]
    · have : ¬ i - 8 < 16 := by omega
      simp only [h1, h2, this, if_false, BitVec.getLsbD_ofBool]
      exact congrArg (· && write) (decide_eq_decide.mpr (by omega))

@[simp] theorem busWrite_busWord (write : Bool) (addr : Addr) (data : Byte) : busWrite (busWord write addr data) = write := by
  rw [busWrite, getLsbD_busWord]; simp

@[simp] theorem busAddr_busWord (write : Bool) (addr : Addr) (data : Byte) : busAddr (busWord write addr data) = addr := by
  apply BitVec.eq_of_getLsbD_eq
  intro i hi
  rw [busAddr, BitVec.getLsbD_extractLsb', getLsbD_busWord]
  simp [hi, show ¬ 8 + i < 8 by omega, show 8 + i < 24 by omega]

@[simp] theorem busData_busWord (write : Bool) (addr : Addr) (data : Byte) : busData (busWord write addr data) = data := by
  apply BitVec.eq_of_getLsbD_eq
  intro i hi
  rw [busData, BitVec.getLsbD_extractLsb', getLsbD_busWord]
  simp [hi]

/-- A bus word is put together from its own fields. -/
theorem busWord_fields (w : BusWord) : busWord (busWrite w) (busAddr w) (busData w) = w := by
  apply BitVec.eq_of_getLsbD_eq
  intro i hi
  rw [getLsbD_busWord, busWrite, busAddr, busData, BitVec.getLsbD_extractLsb', BitVec.getLsbD_extractLsb']
  by_cases h1 : i < 8
  · simp [h1]
  · by_cases h2 : i < 24
    · simp [h1, h2, show i - 8 < 16 by omega, show 8 + (i - 8) = i by omega]
    · obtain rfl : i = 24 := by omega
      simp

/-- A bus word with rw = 1 decodes as a write (R61). -/
theorem decode_bus_of_write {ra : RegAddr} {w : BusWord} (h : w.getLsbD 24 = true) :
    decode ra (.bus w) = decodeWrite ra (busAddr w) (busData w) := if_pos h

/-- A bus word with rw = 0 decodes as a read (R61). -/
theorem decode_bus_of_read {ra : RegAddr} {w : BusWord} (h : ¬ w.getLsbD 24 = true) :
    decode ra (.bus w) = decodeRead ra (busAddr w) := if_neg h

/-- Only a presented tick decodes to a tick (R80). -/
theorem eq_tick_of_decode {ra : RegAddr} {op : Operation} {cycles : Nat} {closeReq : Bool}
    (h : decode ra op = .ok (.tick cycles closeReq)) : op = .tick cycles closeReq := by
  cases op with
  | tick c q =>
    simp only [decode, Except.ok.injEq, Instr.tick.injEq] at h
    rw [h.1, h.2]
  | bus w =>
    by_cases hw : w.getLsbD 24 = true
    · rw [decode_bus_of_write hw, decodeWrite] at h
      split_ifs at h <;> cases h
    · rw [decode_bus_of_read hw, decodeRead] at h
      split_ifs at h <;> cases h

end Sys2Proof
end

