-- ==== Sys2Proof/Laws/State.lean ====
section
/-!
SUPPORT. One lemma per field per update of the state and of the register record, so that no later proof unfolds a record
update.
-/

namespace Sys2Proof.Machine

@[simp] theorem record_cfg (o : Output) (s : State) : (record o s).cfg = s.cfg := rfl
@[simp] theorem record_reg (o : Output) (s : State) : (record o s).reg = s.reg := rfl
@[simp] theorem record_fb (o : Output) (s : State) : (record o s).fb = s.fb := rfl
@[simp] theorem record_mem (o : Output) (s : State) : (record o s).mem = s.mem := rfl
@[simp] theorem record_outputs (o : Output) (s : State) : (record o s).outputs = o :: s.outputs := rfl
@[simp] theorem record_pending (o : Output) (s : State) : (record o s).pending = s.pending := rfl

@[simp] theorem withReg_cfg (r : Regs) (s : State) : (withReg r s).cfg = s.cfg := rfl
@[simp] theorem withReg_reg (r : Regs) (s : State) : (withReg r s).reg = r := rfl
@[simp] theorem withReg_fb (r : Regs) (s : State) : (withReg r s).fb = s.fb := rfl
@[simp] theorem withReg_mem (r : Regs) (s : State) : (withReg r s).mem = s.mem := rfl
@[simp] theorem withReg_outputs (r : Regs) (s : State) : (withReg r s).outputs = s.outputs := rfl
@[simp] theorem withReg_pending (r : Regs) (s : State) : (withReg r s).pending = s.pending := rfl

@[simp] theorem envWrite_cfg (addr : Nat) (data : Byte) (s : State) : (envWrite addr data s).cfg = s.cfg := rfl
@[simp] theorem envWrite_reg (addr : Nat) (data : Byte) (s : State) : (envWrite addr data s).reg = s.reg := rfl
@[simp] theorem envWrite_fb (addr : Nat) (data : Byte) (s : State) : (envWrite addr data s).fb = s.fb := rfl
@[simp] theorem envWrite_mem (addr : Nat) (data : Byte) (s : State) :
    (envWrite addr data s).mem = memWrite s.mem addr data := rfl
@[simp] theorem envWrite_outputs (addr : Nat) (data : Byte) (s : State) :
    (envWrite addr data s).outputs = s.outputs := rfl
@[simp] theorem envWrite_pending (addr : Nat) (data : Byte) (s : State) :
    (envWrite addr data s).pending = s.pending := rfl

@[simp] theorem dropInput_cfg (s : State) : (dropInput s).cfg = s.cfg := rfl
@[simp] theorem dropInput_reg (s : State) : (dropInput s).reg = s.reg := rfl
@[simp] theorem dropInput_fb (s : State) : (dropInput s).fb = s.fb := rfl
@[simp] theorem dropInput_mem (s : State) : (dropInput s).mem = s.mem := rfl
@[simp] theorem dropInput_outputs (s : State) : (dropInput s).outputs = s.outputs := rfl
@[simp] theorem dropInput_pending (s : State) : (dropInput s).pending = s.pending.tail := rfl

@[simp] theorem presentNext_cfg (op : Operation) (s : State) : (presentNext op s).cfg = s.cfg := rfl
@[simp] theorem presentNext_reg (op : Operation) (s : State) : (presentNext op s).reg = s.reg := rfl
@[simp] theorem presentNext_fb (op : Operation) (s : State) : (presentNext op s).fb = s.fb := rfl
@[simp] theorem presentNext_mem (op : Operation) (s : State) : (presentNext op s).mem = s.mem := rfl
@[simp] theorem presentNext_outputs (op : Operation) (s : State) : (presentNext op s).outputs = s.outputs := rfl
@[simp] theorem presentNext_pending (op : Operation) (s : State) :
    (presentNext op s).pending = .operation op :: s.pending := rfl

@[simp] theorem renderLine_cfg (line : Nat) (s : State) : (renderLine line s).cfg = s.cfg := rfl
@[simp] theorem renderLine_reg (line : Nat) (s : State) : (renderLine line s).reg = s.reg := rfl
@[simp] theorem renderLine_fb (line : Nat) (s : State) :
    (renderLine line s).fb = fbSetRow s.fb line (renderRow s.cfg s.reg s.mem line (fbRow s.fb line)) := rfl
@[simp] theorem renderLine_mem (line : Nat) (s : State) : (renderLine line s).mem = s.mem := rfl
@[simp] theorem renderLine_outputs (line : Nat) (s : State) : (renderLine line s).outputs = s.outputs := rfl
@[simp] theorem renderLine_pending (line : Nat) (s : State) : (renderLine line s).pending = s.pending := rfl

@[simp] theorem renderStep_cfg (line : Nat) (s : State) : (renderStep line s).cfg = s.cfg := by
  unfold renderStep; split <;> rfl
@[simp] theorem renderStep_reg (line : Nat) (s : State) : (renderStep line s).reg = s.reg := by
  unfold renderStep; split <;> rfl
@[simp] theorem renderStep_mem (line : Nat) (s : State) : (renderStep line s).mem = s.mem := by
  unfold renderStep; split <;> rfl
@[simp] theorem renderStep_outputs (line : Nat) (s : State) : (renderStep line s).outputs = s.outputs := by
  unfold renderStep; split <;> rfl
@[simp] theorem renderStep_pending (line : Nat) (s : State) : (renderStep line s).pending = s.pending := by
  unfold renderStep; split <;> rfl

/-- What the render step does to the framebuffer: nothing, unless the line is due (R116). -/
theorem renderStep_fb (line : Nat) (s : State) :
    (renderStep line s).fb = if renderDue s.reg line then (renderLine line s).fb else s.fb := by
  unfold renderStep; split <;> rfl

@[simp] theorem latch_bgEnabled (line : Nat) (mode : Mode) (r : Regs) :
    (latch line mode r).bgEnabled = r.bgEnabled := rfl
@[simp] theorem latch_spritesEnabled (line : Nat) (mode : Mode) (r : Regs) :
    (latch line mode r).spritesEnabled = r.spritesEnabled := rfl
@[simp] theorem latch_spriteSize (line : Nat) (mode : Mode) (r : Regs) :
    (latch line mode r).spriteSize = r.spriteSize := rfl
@[simp] theorem latch_tilemapSelect (line : Nat) (mode : Mode) (r : Regs) :
    (latch line mode r).tilemapSelect = r.tilemapSelect := rfl
@[simp] theorem latch_bgTiledataSelect (line : Nat) (mode : Mode) (r : Regs) :
    (latch line mode r).bgTiledataSelect = r.bgTiledataSelect := rfl
@[simp] theorem latch_windowEnabled (line : Nat) (mode : Mode) (r : Regs) :
    (latch line mode r).windowEnabled = r.windowEnabled := rfl
@[simp] theorem latch_windowTilemapSelect (line : Nat) (mode : Mode) (r : Regs) :
    (latch line mode r).windowTilemapSelect = r.windowTilemapSelect := rfl
@[simp] theorem latch_lcdEnabled (line : Nat) (mode : Mode) (r : Regs) :
    (latch line mode r).lcdEnabled = r.lcdEnabled := rfl
@[simp] theorem latch_lyInt (line : Nat) (mode : Mode) (r : Regs) : (latch line mode r).lyInt = r.lyInt := rfl
@[simp] theorem latch_oamInt (line : Nat) (mode : Mode) (r : Regs) : (latch line mode r).oamInt = r.oamInt := rfl
@[simp] theorem latch_vblankInt (line : Nat) (mode : Mode) (r : Regs) :
    (latch line mode r).vblankInt = r.vblankInt := rfl
@[simp] theorem latch_hblankInt (line : Nat) (mode : Mode) (r : Regs) :
    (latch line mode r).hblankInt = r.hblankInt := rfl
@[simp] theorem latch_scrollX (line : Nat) (mode : Mode) (r : Regs) : (latch line mode r).scrollX = r.scrollX := rfl
@[simp] theorem latch_scrollY (line : Nat) (mode : Mode) (r : Regs) : (latch line mode r).scrollY = r.scrollY := rfl
@[simp] theorem latch_windowX (line : Nat) (mode : Mode) (r : Regs) : (latch line mode r).windowX = r.windowX := rfl
@[simp] theorem latch_windowY (line : Nat) (mode : Mode) (r : Regs) : (latch line mode r).windowY = r.windowY := rfl
@[simp] theorem latch_lineCompare (line : Nat) (mode : Mode) (r : Regs) :
    (latch line mode r).lineCompare = r.lineCompare := rfl
@[simp] theorem latch_bgPalette (line : Nat) (mode : Mode) (r : Regs) :
    (latch line mode r).bgPalette = r.bgPalette := rfl
@[simp] theorem latch_objPalette1 (line : Nat) (mode : Mode) (r : Regs) :
    (latch line mode r).objPalette1 = r.objPalette1 := rfl
@[simp] theorem latch_objPalette2 (line : Nat) (mode : Mode) (r : Regs) :
    (latch line mode r).objPalette2 = r.objPalette2 := rfl
@[simp] theorem latch_currentLine (line : Nat) (mode : Mode) (r : Regs) :
    (latch line mode r).currentLine = BitVec.ofNat 8 line := rfl
@[simp] theorem latch_lcdMode (line : Nat) (mode : Mode) (r : Regs) : (latch line mode r).lcdMode = mode := rfl
@[simp] theorem latch_prevLine (line : Nat) (mode : Mode) (r : Regs) : (latch line mode r).prevLine = r.prevLine := rfl
@[simp] theorem latch_prevMode (line : Nat) (mode : Mode) (r : Regs) : (latch line mode r).prevMode = r.prevMode := rfl

@[simp] theorem bookkeep_bgEnabled (line : Nat) (mode : Mode) (r : Regs) :
    (bookkeep line mode r).bgEnabled = r.bgEnabled := rfl
@[simp] theorem bookkeep_spritesEnabled (line : Nat) (mode : Mode) (r : Regs) :
    (bookkeep line mode r).spritesEnabled = r.spritesEnabled := rfl
@[simp] theorem bookkeep_spriteSize (line : Nat) (mode : Mode) (r : Regs) :
    (bookkeep line mode r).spriteSize = r.spriteSize := rfl
@[simp] theorem bookkeep_tilemapSelect (line : Nat) (mode : Mode) (r : Regs) :
    (bookkeep line mode r).tilemapSelect = r.tilemapSelect := rfl
@[simp] theorem bookkeep_bgTiledataSelect (line : Nat) (mode : Mode) (r : Regs) :
    (bookkeep line mode r).bgTiledataSelect = r.bgTiledataSelect := rfl
@[simp] theorem bookkeep_windowEnabled (line : Nat) (mode : Mode) (r : Regs) :
    (bookkeep line mode r).windowEnabled = r.windowEnabled := rfl
@[simp] theorem bookkeep_windowTilemapSelect (line : Nat) (mode : Mode) (r : Regs) :
    (bookkeep line mode r).windowTilemapSelect = r.windowTilemapSelect := rfl
@[simp] theorem bookkeep_lcdEnabled (line : Nat) (mode : Mode) (r : Regs) :
    (bookkeep line mode r).lcdEnabled = r.lcdEnabled := rfl
@[simp] theorem bookkeep_lyInt (line : Nat) (mode : Mode) (r : Regs) : (bookkeep line mode r).lyInt = r.lyInt := rfl
@[simp] theorem bookkeep_oamInt (line : Nat) (mode : Mode) (r : Regs) : (bookkeep line mode r).oamInt = r.oamInt := rfl
@[simp] theorem bookkeep_vblankInt (line : Nat) (mode : Mode) (r : Regs) :
    (bookkeep line mode r).vblankInt = r.vblankInt := rfl
@[simp] theorem bookkeep_hblankInt (line : Nat) (mode : Mode) (r : Regs) :
    (bookkeep line mode r).hblankInt = r.hblankInt := rfl
@[simp] theorem bookkeep_scrollX (line : Nat) (mode : Mode) (r : Regs) :
    (bookkeep line mode r).scrollX = r.scrollX := rfl
@[simp] theorem bookkeep_scrollY (line : Nat) (mode : Mode) (r : Regs) :
    (bookkeep line mode r).scrollY = r.scrollY := rfl
@[simp] theorem bookkeep_windowX (line : Nat) (mode : Mode) (r : Regs) :
    (bookkeep line mode r).windowX = r.windowX := rfl
@[simp] theorem bookkeep_windowY (line : Nat) (mode : Mode) (r : Regs) :
    (bookkeep line mode r).windowY = r.windowY := rfl
@[simp] theorem bookkeep_lineCompare (line : Nat) (mode : Mode) (r : Regs) :
    (bookkeep line mode r).lineCompare = r.lineCompare := rfl
@[simp] theorem bookkeep_bgPalette (line : Nat) (mode : Mode) (r : Regs) :
    (bookkeep line mode r).bgPalette = r.bgPalette := rfl
@[simp] theorem bookkeep_objPalette1 (line : Nat) (mode : Mode) (r : Regs) :
    (bookkeep line mode r).objPalette1 = r.objPalette1 := rfl
@[simp] theorem bookkeep_objPalette2 (line : Nat) (mode : Mode) (r : Regs) :
    (bookkeep line mode r).objPalette2 = r.objPalette2 := rfl
@[simp] theorem bookkeep_currentLine (line : Nat) (mode : Mode) (r : Regs) :
    (bookkeep line mode r).currentLine = r.currentLine := rfl
@[simp] theorem bookkeep_lcdMode (line : Nat) (mode : Mode) (r : Regs) :
    (bookkeep line mode r).lcdMode = r.lcdMode := rfl
@[simp] theorem bookkeep_prevLine (line : Nat) (mode : Mode) (r : Regs) :
    (bookkeep line mode r).prevLine = BitVec.ofNat 8 line := rfl
@[simp] theorem bookkeep_prevMode (line : Nat) (mode : Mode) (r : Regs) : (bookkeep line mode r).prevMode = mode := rfl

@[simp] theorem setControl_bgEnabled (data : Byte) (r : Regs) : (setControl data r).bgEnabled = data.getLsbD 0 := rfl
@[simp] theorem setControl_spritesEnabled (data : Byte) (r : Regs) :
    (setControl data r).spritesEnabled = data.getLsbD 1 := rfl
@[simp] theorem setControl_spriteSize (data : Byte) (r : Regs) : (setControl data r).spriteSize = data.getLsbD 2 := rfl
@[simp] theorem setControl_tilemapSelect (data : Byte) (r : Regs) :
    (setControl data r).tilemapSelect = data.getLsbD 3 := rfl
@[simp] theorem setControl_bgTiledataSelect (data : Byte) (r : Regs) :
    (setControl data r).bgTiledataSelect = data.getLsbD 4 := rfl
@[simp] theorem setControl_windowEnabled (data : Byte) (r : Regs) :
    (setControl data r).windowEnabled = data.getLsbD 5 := rfl
@[simp] theorem setControl_windowTilemapSelect (data : Byte) (r : Regs) :
    (setControl data r).windowTilemapSelect = data.getLsbD 6 := rfl
@[simp] theorem setControl_lcdEnabled (data : Byte) (r : Regs) : (setControl data r).lcdEnabled = data.getLsbD 7 := rfl
@[simp] theorem setControl_lyInt (data : Byte) (r : Regs) : (setControl data r).lyInt = r.lyInt := rfl
@[simp] theorem setControl_oamInt (data : Byte) (r : Regs) : (setControl data r).oamInt = r.oamInt := rfl
@[simp] theorem setControl_vblankInt (data : Byte) (r : Regs) : (setControl data r).vblankInt = r.vblankInt := rfl
@[simp] theorem setControl_hblankInt (data : Byte) (r : Regs) : (setControl data r).hblankInt = r.hblankInt := rfl
@[simp] theorem setControl_scrollX (data : Byte) (r : Regs) : (setControl data r).scrollX = r.scrollX := rfl
@[simp] theorem setControl_scrollY (data : Byte) (r : Regs) : (setControl data r).scrollY = r.scrollY := rfl
@[simp] theorem setControl_windowX (data : Byte) (r : Regs) : (setControl data r).windowX = r.windowX := rfl
@[simp] theorem setControl_windowY (data : Byte) (r : Regs) : (setControl data r).windowY = r.windowY := rfl
@[simp] theorem setControl_lineCompare (data : Byte) (r : Regs) : (setControl data r).lineCompare = r.lineCompare := rfl
@[simp] theorem setControl_bgPalette (data : Byte) (r : Regs) : (setControl data r).bgPalette = r.bgPalette := rfl
@[simp] theorem setControl_objPalette1 (data : Byte) (r : Regs) : (setControl data r).objPalette1 = r.objPalette1 := rfl
@[simp] theorem setControl_objPalette2 (data : Byte) (r : Regs) : (setControl data r).objPalette2 = r.objPalette2 := rfl
@[simp] theorem setControl_currentLine (data : Byte) (r : Regs) : (setControl data r).currentLine = r.currentLine := rfl
@[simp] theorem setControl_lcdMode (data : Byte) (r : Regs) : (setControl data r).lcdMode = r.lcdMode := rfl
@[simp] theorem setControl_prevLine (data : Byte) (r : Regs) : (setControl data r).prevLine = r.prevLine := rfl
@[simp] theorem setControl_prevMode (data : Byte) (r : Regs) : (setControl data r).prevMode = r.prevMode := rfl

@[simp] theorem setStatus_bgEnabled (data : Byte) (r : Regs) : (setStatus data r).bgEnabled = r.bgEnabled := rfl
@[simp] theorem setStatus_spritesEnabled (data : Byte) (r : Regs) :
    (setStatus data r).spritesEnabled = r.spritesEnabled := rfl
@[simp] theorem setStatus_spriteSize (data : Byte) (r : Regs) : (setStatus data r).spriteSize = r.spriteSize := rfl
@[simp] theorem setStatus_tilemapSelect (data : Byte) (r : Regs) :
    (setStatus data r).tilemapSelect = r.tilemapSelect := rfl
@[simp] theorem setStatus_bgTiledataSelect (data : Byte) (r : Regs) :
    (setStatus data r).bgTiledataSelect = r.bgTiledataSelect := rfl
@[simp] theorem setStatus_windowEnabled (data : Byte) (r : Regs) :
    (setStatus data r).windowEnabled = r.windowEnabled := rfl
@[simp] theorem setStatus_windowTilemapSelect (data : Byte) (r : Regs) :
    (setStatus data r).windowTilemapSelect = r.windowTilemapSelect := rfl
@[simp] theorem setStatus_lcdEnabled (data : Byte) (r : Regs) : (setStatus data r).lcdEnabled = r.lcdEnabled := rfl
@[simp] theorem setStatus_lyInt (data : Byte) (r : Regs) : (setStatus data r).lyInt = data.getLsbD 6 := rfl
@[simp] theorem setStatus_oamInt (data : Byte) (r : Regs) : (setStatus data r).oamInt = data.getLsbD 5 := rfl
@[simp] theorem setStatus_vblankInt (data : Byte) (r : Regs) : (setStatus data r).vblankInt = data.getLsbD 4 := rfl
@[simp] theorem setStatus_hblankInt (data : Byte) (r : Regs) : (setStatus data r).hblankInt = data.getLsbD 3 := rfl
@[simp] theorem setStatus_scrollX (data : Byte) (r : Regs) : (setStatus data r).scrollX = r.scrollX := rfl
@[simp] theorem setStatus_scrollY (data : Byte) (r : Regs) : (setStatus data r).scrollY = r.scrollY := rfl
@[simp] theorem setStatus_windowX (data : Byte) (r : Regs) : (setStatus data r).windowX = r.windowX := rfl
@[simp] theorem setStatus_windowY (data : Byte) (r : Regs) : (setStatus data r).windowY = r.windowY := rfl
@[simp] theorem setStatus_lineCompare (data : Byte) (r : Regs) : (setStatus data r).lineCompare = r.lineCompare := rfl
@[simp] theorem setStatus_bgPalette (data : Byte) (r : Regs) : (setStatus data r).bgPalette = r.bgPalette := rfl
@[simp] theorem setStatus_objPalette1 (data : Byte) (r : Regs) : (setStatus data r).objPalette1 = r.objPalette1 := rfl
@[simp] theorem setStatus_objPalette2 (data : Byte) (r : Regs) : (setStatus data r).objPalette2 = r.objPalette2 := rfl
@[simp] theorem setStatus_currentLine (data : Byte) (r : Regs) : (setStatus data r).currentLine = r.currentLine := rfl
@[simp] theorem setStatus_lcdMode (data : Byte) (r : Regs) : (setStatus data r).lcdMode = r.lcdMode := rfl
@[simp] theorem setStatus_prevLine (data : Byte) (r : Regs) : (setStatus data r).prevLine = r.prevLine := rfl
@[simp] theorem setStatus_prevMode (data : Byte) (r : Regs) : (setStatus data r).prevMode = r.prevMode := rfl

end Sys2Proof.Machine
end

