-- ==== Sys2Proof/Laws/Memory.lean ====
section
/-!
SUPPORT. The laws of the keyed lists behind memory and framebuffer, of memory, of the framebuffer and of one row: a read
after a write, and that every operation keeps the canonical form.
-/

namespace Sys2Proof.Machine

section Assoc

variable {α : Type}

/-- What listing a value adds: an entry of that key and value, or nothing. -/
theorem mem_assocEntry {key : Nat} {v : Option α} {p : Nat × α} (h : p ∈ assocEntry key v) : p.1 = key ∧ v = some p.2 := by
  cases v with
  | none => simp [assocEntry] at h
  | some a => simp only [assocEntry, List.mem_singleton] at h; subst h; exact ⟨rfl, rfl⟩

/-- An entry after a set is the one set or one that was there. -/
theorem mem_assocSet {l : List (Nat × α)} {key : Nat} {v : Option α} {p : Nat × α} (h : p ∈ assocSet l key v) :
    (p.1 = key ∧ v = some p.2) ∨ p ∈ l := by
  induction l with
  | nil => exact .inl (mem_assocEntry h)
  | cons q rest ih =>
    obtain ⟨k, a⟩ := q
    unfold assocSet at h
    split at h
    · rcases List.mem_append.mp h with h | h
      · exact .inl (mem_assocEntry h)
      · exact .inr h
    · split at h
      · rcases List.mem_append.mp h with h | h
        · exact .inl (mem_assocEntry h)
        · exact .inr (List.mem_cons_of_mem _ h)
      · rcases List.mem_cons.mp h with h | h
        · exact .inr (h ▸ List.mem_cons_self)
        · exact (ih h).imp_right (List.mem_cons_of_mem _)

/-- Setting a value keeps the keys strictly rising. -/
theorem assocSet_rising {l : List (Nat × α)} (key : Nat) (v : Option α) (h : assocRising l) :
    assocRising (assocSet l key v) := by
  induction l with
  | nil => cases v <;> simp [assocSet, assocEntry, assocRising]
  | cons q rest ih =>
    obtain ⟨k, a⟩ := q
    obtain ⟨hk, hrest⟩ := List.pairwise_cons.mp h
    unfold assocSet
    split
    · rename_i hlt
      cases v with
      | none => exact h
      | some b =>
        refine List.pairwise_cons.mpr ⟨fun p hp => ?_, h⟩
        rcases List.mem_cons.mp hp with rfl | hp
        · exact hlt
        · exact lt_trans hlt (hk p hp)
    · split
      · rename_i heq
        cases v with
        | none => exact hrest
        | some b => exact List.pairwise_cons.mpr ⟨fun p hp => heq ▸ hk p hp, hrest⟩
      · rename_i h1 h2
        refine List.pairwise_cons.mpr ⟨fun p hp => ?_, ih hrest⟩
        rcases mem_assocSet hp with ⟨hkey, -⟩ | hp
        · show k < p.1; omega
        · exact hk p hp

/-- A key below every listed key is not listed. -/
theorem assocGet_of_lt {l : List (Nat × α)} {key : Nat} (h : ∀ p ∈ l, key < p.1) : assocGet l key = none := by
  induction l with
  | nil => rfl
  | cons q rest ih =>
    obtain ⟨k, a⟩ := q
    have hk : key < k := h _ List.mem_cons_self
    rw [assocGet, if_neg (by omega), ih fun p hp => h p (List.mem_cons_of_mem _ hp)]

/-- What is listed under a key stands in the list. -/
theorem assocGet_mem {l : List (Nat × α)} {key : Nat} {a : α} (h : assocGet l key = some a) : (key, a) ∈ l := by
  induction l with
  | nil => simp [assocGet] at h
  | cons q rest ih =>
    obtain ⟨k, b⟩ := q
    unfold assocGet at h
    split at h
    · rename_i hk; cases h; exact hk ▸ List.mem_cons_self
    · exact List.mem_cons_of_mem _ (ih h)

/-- Reading the key just set, in front of a list that does not hold it. -/
theorem assocGet_entry_append {l : List (Nat × α)} {key : Nat} (v : Option α) (h : assocGet l key = none) :
    assocGet (assocEntry key v ++ l) key = v := by
  cases v with
  | none => exact h
  | some a => simp [assocEntry, assocGet]

/-- Reading another key past an entry. -/
theorem assocGet_entry_append_ne {l : List (Nat × α)} {key k : Nat} (v : Option α) (h : k ≠ key) :
    assocGet (assocEntry key v ++ l) k = assocGet l k := by
  cases v with
  | none => rfl
  | some a =>
    simp only [assocEntry, List.singleton_append, assocGet, if_neg h]

/-- Read after set, the same key. -/
theorem assocGet_assocSet_self {l : List (Nat × α)} (key : Nat) (v : Option α) (h : assocRising l) :
    assocGet (assocSet l key v) key = v := by
  induction l with
  | nil => cases v <;> simp [assocSet, assocEntry, assocGet]
  | cons q rest ih =>
    obtain ⟨k, a⟩ := q
    obtain ⟨hk, hrest⟩ := List.pairwise_cons.mp h
    unfold assocSet
    split
    · rename_i hlt
      refine assocGet_entry_append v (assocGet_of_lt fun p hp => ?_)
      rcases List.mem_cons.mp hp with rfl | hp
      · exact hlt
      · exact lt_trans hlt (hk p hp)
    · split
      · rename_i heq
        exact assocGet_entry_append v (assocGet_of_lt fun p hp => heq ▸ hk p hp)
      · rename_i h1 h2
        rw [assocGet, if_neg (by omega), ih hrest]

/-- Read after set, another key. -/
theorem assocGet_assocSet_ne {l : List (Nat × α)} {key k : Nat} (v : Option α) (h : k ≠ key) :
    assocGet (assocSet l key v) k = assocGet l k := by
  induction l with
  | nil => simpa [assocSet, assocGet] using assocGet_entry_append_ne (l := []) v h
  | cons q rest ih =>
    obtain ⟨k', a⟩ := q
    unfold assocSet
    split
    · exact assocGet_entry_append_ne v h
    · split
      · rename_i heq
        rw [assocGet_entry_append_ne v h, assocGet, if_neg (by omega)]
      · rw [assocGet, assocGet, ih]

end Assoc

/-- The memory after reset is in its canonical form. -/
theorem reset_mem_wf (c : Cfg) : (State.resetOf c).mem.wf := ⟨List.Pairwise.nil, by simp [State.resetOf]⟩

/-- A write keeps the memory's canonical form. -/
theorem memWrite_wf {m : Memory} (addr : Nat) (data : Byte) (h : m.wf) : (memWrite m addr data).wf := by
  refine ⟨assocSet_rising _ _ h.1, fun c hc => ?_⟩
  rcases mem_assocSet hc with ⟨-, hv⟩ | hc
  · split at hv
    · cases hv
    · cases hv; assumption
  · exact h.2 c hc

/-- Read after write, the same address. -/
theorem memRead_memWrite_self {m : Memory} (addr : Nat) (data : Byte) (h : m.wf) :
    memRead (memWrite m addr data) (addr : Int) = data := by
  unfold memRead memWrite
  rw [Int.toNat_natCast, assocGet_assocSet_self _ _ h.1]
  split <;> simp_all

/-- Read after write, another address. -/
theorem memRead_memWrite_ne {m : Memory} {addr : Nat} {a : Int} (data : Byte) (h : a.toNat ≠ addr) :
    memRead (memWrite m addr data) a = memRead m a := by
  unfold memRead memWrite
  rw [assocGet_assocSet_ne _ h]

/-- The framebuffer after reset is in its canonical form. -/
theorem reset_fb_wf (c : Cfg) : (State.resetOf c).fb.wf := ⟨List.Pairwise.nil, by simp [State.resetOf]⟩

/-- Replacing a visible row by a row of 160 columns keeps the framebuffer's canonical form. -/
theorem fbSetRow_wf {fb : Framebuffer} {row : Nat} {r : Row} (h : fb.wf) (hrow : row < visibleLines)
    (hr : r.length = visibleWidth) : (fbSetRow fb row r).wf := by
  refine ⟨assocSet_rising _ _ h.1, fun p hp => ?_⟩
  rcases mem_assocSet hp with ⟨hk, hv⟩ | hp
  · split at hv
    · rename_i hany
      cases hv
      exact ⟨hk ▸ hrow, hr, hany⟩
    · cases hv
  · exact h.2 p hp

@[simp] theorem rowBlank_length : rowBlank.length = visibleWidth := by simp [rowBlank]

/-- Every row of a canonical framebuffer has 160 columns, listed or not. -/
theorem fbRow_length {fb : Framebuffer} (h : fb.wf) (row : Nat) : (fbRow fb row).length = visibleWidth := by
  unfold fbRow
  cases hg : assocGet fb row with
  | none => exact rowBlank_length
  | some r => exact (h.2 _ (assocGet_mem hg)).2.1

/-- A row without a written pixel is the blank row. -/
theorem eq_rowBlank {r : Row} (hr : r.length = visibleWidth) (h : r.any Option.isSome = false) : r = rowBlank := by
  refine List.eq_replicate_iff.mpr ⟨hr, fun b hb => ?_⟩
  have := List.any_eq_false.mp h b hb
  cases b <;> simp_all

/-- Reading the row just replaced. -/
theorem fbRow_fbSetRow_self {fb : Framebuffer} {row : Nat} {r : Row} (h : fb.wf) (hr : r.length = visibleWidth) :
    fbRow (fbSetRow fb row r) row = r := by
  unfold fbRow fbSetRow
  rw [assocGet_assocSet_self _ _ h.1]
  split
  · rfl
  · rename_i hany
    exact (eq_rowBlank hr (by simpa using hany)).symm

/-- Reading another row. -/
theorem fbRow_fbSetRow_ne {fb : Framebuffer} {row k : Nat} (r : Row) (h : k ≠ row) :
    fbRow (fbSetRow fb row r) k = fbRow fb k := by
  unfold fbRow fbSetRow
  rw [assocGet_assocSet_ne _ h]

@[simp] theorem rowModify_length (r : Row) (col : Nat) (f : Option Colour → Option Colour) :
    (rowModify r col f).length = r.length := by simp [rowModify]

@[simp] theorem rowWrite_length (r : Row) (col : Nat) (c : Colour) : (rowWrite r col c).length = r.length := by
  simp [rowWrite]

/-- A changed column reads as the function of what it held. -/
theorem rowCell_rowModify_self {r : Row} {col : Nat} (f : Option Colour → Option Colour) (h : col < r.length) :
    rowCell (rowModify r col f) col = f (rowCell r col) := by
  simp [rowCell, rowModify, List.getElem?_eq_getElem h]

/-- Any other column reads as before. -/
theorem rowCell_rowModify_ne {r : Row} {col k : Nat} (f : Option Colour → Option Colour) (h : k ≠ col) :
    rowCell (rowModify r col f) k = rowCell r k := by
  simp [rowCell, rowModify, Ne.symm h]

/-- A written column reads as the colour written. -/
theorem rowCell_rowWrite_self {r : Row} {col : Nat} (c : Colour) (h : col < r.length) :
    rowCell (rowWrite r col c) col = some c := rowCell_rowModify_self _ h

/-- Any other column reads as before. -/
theorem rowCell_rowWrite_ne {r : Row} {col k : Nat} (c : Colour) (h : k ≠ col) :
    rowCell (rowWrite r col c) k = rowCell r k := rowCell_rowModify_ne _ h

end Sys2Proof.Machine
end

