-- ==== Sys2Proof/Laws/PerInstr.lean ====
section
/-!
SUPPORT. Statements about every operation as syntax, one lemma per constructor. The family Direction: bit 24 of an operation's
bus word tells a write from a read (R61), and the tick has no bus word (R80).
-/

namespace Sys2Proof.Laws.Direction

/-- The direction bit that R61 gives an operation; none for the tick, which is not a bus transaction (R80). -/
def direction : Instr → Option Bool
  | .wrLcdc _ => some true
  | .wrStat _ => some true
  | .wrScy _ => some true
  | .wrScx _ => some true
  | .wrLyc _ => some true
  | .wrBgp _ => some true
  | .wrObp0 _ => some true
  | .wrObp1 _ => some true
  | .wrWy _ => some true
  | .wrWx _ => some true
  | .rdStat => some false
  | .rdLy => some false
  | .rdLyc => some false
  | .tick _ _ => none

/-- The direction bit of a presented operation. -/
def busDirection : Operation → Option Bool
  | .bus w => some (busWrite w)
  | .tick _ _ => none

/-- An operation is presented with the direction R61 gives it, at every register address map. -/
def Statement (i : Instr) : Prop := ∀ ra : RegAddr, busDirection (encode ra i) = direction i

theorem wrLcdc (data : Byte) : Statement (.wrLcdc data) := fun _ => congrArg some (busWrite_busWord ..)
theorem wrStat (data : Byte) : Statement (.wrStat data) := fun _ => congrArg some (busWrite_busWord ..)
theorem wrScy (data : Byte) : Statement (.wrScy data) := fun _ => congrArg some (busWrite_busWord ..)
theorem wrScx (data : Byte) : Statement (.wrScx data) := fun _ => congrArg some (busWrite_busWord ..)
theorem wrLyc (data : Byte) : Statement (.wrLyc data) := fun _ => congrArg some (busWrite_busWord ..)
theorem wrBgp (data : Byte) : Statement (.wrBgp data) := fun _ => congrArg some (busWrite_busWord ..)
theorem wrObp0 (data : Byte) : Statement (.wrObp0 data) := fun _ => congrArg some (busWrite_busWord ..)
theorem wrObp1 (data : Byte) : Statement (.wrObp1 data) := fun _ => congrArg some (busWrite_busWord ..)
theorem wrWy (data : Byte) : Statement (.wrWy data) := fun _ => congrArg some (busWrite_busWord ..)
theorem wrWx (data : Byte) : Statement (.wrWx data) := fun _ => congrArg some (busWrite_busWord ..)
theorem rdStat : Statement .rdStat := fun _ => congrArg some (busWrite_busWord ..)
theorem rdLy : Statement .rdLy := fun _ => congrArg some (busWrite_busWord ..)
theorem rdLyc : Statement .rdLyc := fun _ => congrArg some (busWrite_busWord ..)
theorem tick (cycles : Nat) (closeReq : Bool) : Statement (.tick cycles closeReq) := fun _ => rfl

end Sys2Proof.Laws.Direction
end

