-- ==== Sys2Proof/Laws/View.lean ====
section
/-!
SUPPORT. Rendering a row reads only some of the registers (R11's column "read by"): two records that agree on those render
the same row.
-/

namespace Sys2Proof.Machine

/-- The record with every field that no rendering rule reads set to a fixed value: the display enable (R15), the four
interrupt enables, `window_x` (R13), `line_compare` and the four timing fields. -/
def renderView (r : Regs) : Regs :=
  { r with
    lcdEnabled := false
    lyInt := false
    oamInt := false
    vblankInt := false
    hblankInt := false
    windowX := 0
    lineCompare := 0
    currentLine := 0
    lcdMode := .hblank
    prevLine := 0
    prevMode := .hblank }

theorem renderView_latch (line : Nat) (mode : Mode) (r : Regs) : renderView (latch line mode r) = renderView r := rfl

theorem renderView_bookkeep (line : Nat) (mode : Mode) (r : Regs) : renderView (bookkeep line mode r) = renderView r := rfl

theorem renderView_setStatus (data : Byte) (r : Regs) : renderView (setStatus data r) = renderView r := rfl

variable (c : Cfg) (r : Regs) (m : Memory) (line : Nat)

theorem layerPoint_view (x : Nat) : layerPoint c (renderView r) line x = layerPoint c r line x := rfl

theorem layerColour_view (p : LayerPoint) : layerColour c (renderView r) m p = layerColour c r m p := rfl

theorem bgZeroColour_view : bgZeroColour c (renderView r) = bgZeroColour c r := rfl

theorem onLine_view (d : Descriptor) : onLine (renderView r) line d = onLine r line d := rfl

theorem backgroundFrom_view (xs : List Nat) (row : Row) :
    backgroundFrom c (renderView r) m line xs row = backgroundFrom c r m line xs row := by
  induction xs generalizing row with
  | nil => rfl
  | cons x rest ih => simp only [backgroundFrom, layerPoint_view, layerColour_view, bgZeroColour_view, ih]

theorem selectFrom_view (room : Nat) (slots : List Nat) :
    selectFrom c (renderView r) m line room slots = selectFrom c r m line room slots := by
  induction slots generalizing room with
  | nil => cases room <;> rfl
  | cons i rest ih => cases room <;> simp only [selectFrom, onLine_view, ih]

theorem drawColumn_view (d : Descriptor) (row : Row) (col : Nat) :
    drawColumn c (renderView r) m line d row col = drawColumn c r m line d row col := rfl

theorem drawSprite_view (row : Row) (d : Descriptor) :
    drawSprite c (renderView r) m line row d = drawSprite c r m line row d := by
  unfold drawSprite
  rw [funext fun row => funext fun col => drawColumn_view c r m line d row col]

theorem renderSprites_view (row : Row) : renderSprites c (renderView r) m line row = renderSprites c r m line row := by
  unfold renderSprites selectSprites
  rw [selectFrom_view, funext fun row => funext fun d => drawSprite_view c r m line row d]
  rfl

theorem renderRow_view (row : Row) : renderRow c (renderView r) m line row = renderRow c r m line row := by
  unfold renderRow renderBackground
  rw [renderSprites_view, backgroundFrom_view]

variable {r} in
/-- Records with the same view render the same row. -/
theorem renderRow_eq_of_view {r' : Regs} (h : renderView r = renderView r') {c : Cfg} {m : Memory} {line : Nat} {row : Row} :
    renderRow c r m line row = renderRow c r' m line row := by
  rw [← renderRow_view c r, h, renderRow_view]

end Sys2Proof.Machine
end

