-- ==== Sys2Proof/Laws/Timing.lean ====
section
/-!
SUPPORT. Ranges of the raster position (R112), the mode's characterisation (R113), and what a tick that is not stopped makes
of each part of the state (R110).
-/

namespace Sys2Proof.Machine

theorem framePosition_lt (cycles : Nat) : framePosition cycles < 17556 := Nat.mod_lt _ (by decide)

theorem linePosition_lt (cycles : Nat) : linePosition cycles < 114 := Nat.mod_lt _ (by decide)

/-- The line is at most 153 for every value of the counter (R112). -/
theorem lineOf_lt (cycles : Nat) : lineOf cycles < 154 := by
  have := framePosition_lt cycles
  unfold lineOf unitsPerLine
  omega

/-- Line and position make up the frame position. -/
theorem framePosition_eq (cycles : Nat) : framePosition cycles = 114 * lineOf cycles + linePosition cycles := by
  unfold lineOf linePosition unitsPerLine
  omega

/-- A line fits its 8-bit field. -/
theorem toNat_ofNat_line {line : Nat} (h : line < 154) : (BitVec.ofNat 8 line).toNat = line := by
  simp only [BitVec.toNat_ofNat]
  omega

@[simp] theorem toNat_ofNat_lineOf (cycles : Nat) : (BitVec.ofNat 8 (lineOf cycles)).toNat = lineOf cycles :=
  toNat_ofNat_line (lineOf_lt cycles)

@[simp] theorem lineOf_mod_256 (cycles : Nat) : lineOf cycles % 256 = lineOf cycles :=
  Nat.mod_eq_of_lt (by have := lineOf_lt cycles; omega)

/-- The mode is V-blank exactly on lines from 144 on (R113). -/
theorem modeOf_eq_vblank (cycles : Nat) : modeOf cycles = .vblank ↔ 144 ≤ lineOf cycles := by
  unfold modeOf visibleLines
  split
  · simp_all
  · split
    · simp_all
    · split <;> simp_all

/-- The mode is OAM-search exactly at the positions below 20 of a visible line (R113, R114). -/
theorem modeOf_eq_oamSearch (cycles : Nat) :
    modeOf cycles = .oamSearch ↔ lineOf cycles < 144 ∧ linePosition cycles < 20 := by
  unfold modeOf visibleLines mode2End
  split
  · simp; omega
  · split
    · simp; omega
    · split <;> simp_all

/-- The mode is pixel-transfer exactly at the positions 20 to 62 of a visible line (R113, R114). -/
theorem modeOf_eq_pixelTransfer (cycles : Nat) :
    modeOf cycles = .pixelTransfer ↔ lineOf cycles < 144 ∧ 20 ≤ linePosition cycles ∧ linePosition cycles < 63 := by
  unfold modeOf visibleLines mode2End mode3End
  split
  · simp; omega
  · split
    · simp; omega
    · split
      · simp; omega
      · simp; omega

/-- The mode is H-blank exactly at the positions from 63 on of a visible line (R113, R114). -/
theorem modeOf_eq_hblank (cycles : Nat) : modeOf cycles = .hblank ↔ lineOf cycles < 144 ∧ 63 ≤ linePosition cycles := by
  unfold modeOf visibleLines mode2End mode3End
  split
  · simp; omega
  · split
    · simp; omega
    · split
      · simp; omega
      · simp; omega

section Events

variable (r : Regs) (line : Nat) (mode : Mode)

/-- The chain makes no request exactly when none of its four conditions holds (R115). -/
theorem statSource_eq_none : statSource r line mode = none ↔
    ¬(r.lyInt = true ∧ line = r.lineCompare.toNat) ∧
    ¬(r.hblankInt = true ∧ mode = .hblank ∧ r.prevMode ≠ .hblank) ∧
    ¬(r.vblankInt = true ∧ mode = .vblank ∧ r.prevMode ≠ .vblank) ∧
    ¬(r.oamInt = true ∧ mode = .oamSearch ∧ r.prevMode ≠ .oamSearch) := by
  unfold statSource
  split_ifs with ha hb hc hd
  · exact iff_of_false (by simp) fun h => h.1 ha
  · exact iff_of_false (by simp) fun h => h.2.1 hb
  · exact iff_of_false (by simp) fun h => h.2.2.1 hc
  · exact iff_of_false (by simp) fun h => h.2.2.2 hd
  · exact iff_of_true rfl ⟨ha, hb, hc, hd⟩

/-- Without a source the evaluation puts out nothing (R115). -/
theorem statEvents_of_none (h : statSource r line mode = none) : statEvents r line mode = [] := by
  rw [statEvents, h]

/-- With a source it puts out one LCD-STAT request (R115). -/
theorem statEvents_of_some {source : StatSource} (h : statSource r line mode = some source) :
    statEvents r line mode = [.request .lcdStat] := by
  rw [statEvents, h]

/-- While the coincidence holds it is the source, whatever else is true (R195). -/
theorem statSource_of_coincidence (h : r.lyInt = true ∧ line = r.lineCompare.toNat) :
    statSource r line mode = some .coincidence := if_pos h

/-- The evaluation puts out no other event. -/
theorem count_statEvents_of_ne {e : Event} (h : e ≠ .request .lcdStat) : (statEvents r line mode).count e = 0 := by
  rw [List.count_eq_zero]
  unfold statEvents
  split <;> simp [h]

/-- The frame boundary puts out no LCD-STAT request (R196). -/
@[simp] theorem count_lcdStat_frameEvents : (frameEvents r line).count (.request .lcdStat) = 0 := by
  rw [List.count_eq_zero]
  unfold frameEvents
  split <;> simp

/-- The frame boundary puts out one `present()` or none (R117). -/
theorem count_present_frameEvents :
    (frameEvents r line).count .present = if r.prevLine.toNat = 143 ∧ line = 144 then 1 else 0 := by
  unfold frameEvents
  split <;> rfl

/-- The frame boundary puts out one V-blank request or none (R117). -/
theorem count_vblank_frameEvents :
    (frameEvents r line).count (.request .vblank) = if r.prevLine.toNat = 143 ∧ line = 144 then 1 else 0 := by
  unfold frameEvents
  split <;> rfl

end Events

section TickAt

variable (line : Nat) (mode : Mode) (s : State)

@[simp] theorem tickAt_cfg : (tickAt line mode s).cfg = s.cfg := by simp [tickAt]

@[simp] theorem tickAt_mem : (tickAt line mode s).mem = s.mem := by simp [tickAt]

@[simp] theorem tickAt_pending : (tickAt line mode s).pending = s.pending := by simp [tickAt]

/-- The four fields a tick writes (R112, R113, R119); every other register field is as before. -/
@[simp] theorem tickAt_reg : (tickAt line mode s).reg = bookkeep line mode (latch line mode s.reg) := by simp [tickAt]

/-- What a tick puts out: CONTINUE and its events, which depend on the registers as they were (R115, R117). -/
@[simp] theorem tickAt_outputs :
    (tickAt line mode s).outputs = .tick .cont (tickEvents s.reg line mode) :: s.outputs := by
  simp only [tickAt, record_outputs, withReg_outputs, renderStep_outputs]
  rfl

/-- What a tick makes of the framebuffer: its line's row replaced if the line is due, else nothing (R116). -/
theorem tickAt_fb :
    (tickAt line mode s).fb =
      if renderDue s.reg line then fbSetRow s.fb line (renderRow s.cfg s.reg s.mem line (fbRow s.fb line)) else s.fb := by
  simp only [tickAt, record_fb, withReg_fb, renderStep_fb, renderLine_fb, withReg_reg, withReg_cfg, withReg_mem]
  rw [renderRow_eq_of_view (renderView_latch line mode s.reg)]
  rfl

end TickAt

/-- The render condition in words: the line changed and is visible (R116). -/
theorem renderDue_iff (r : Regs) (line : Nat) : renderDue r line = true ↔ line ≠ r.prevLine.toNat ∧ line < 144 := by
  rw [renderDue, Bool.and_eq_true, bne_iff_ne, decide_eq_true_iff]
  exact Iff.rfl

end Sys2Proof.Machine
end

