-- ==== Sys2Proof/Laws/Render.lean ====
section
/-!
SUPPORT. What the two passes over a row keep: its 160 columns, and the columns they do not reach; and the sprite list's
elementary facts.
-/

namespace Sys2Proof.Machine

variable (c : Cfg) (r : Regs) (m : Memory) (line : Nat)

@[simp] theorem backgroundFrom_length (xs : List Nat) (row : Row) :
    (backgroundFrom c r m line xs row).length = row.length := by
  induction xs generalizing row with
  | nil => rfl
  | cons x rest ih =>
    unfold backgroundFrom
    split
    · rw [ih, rowWrite_length]
    · split
      · exact rowWrite_length ..
      · rw [ih, rowWrite_length]

@[simp] theorem renderBackground_length (row : Row) : (renderBackground c r m line row).length = row.length :=
  backgroundFrom_length ..

/-- A column that the pass does not list keeps its cell. -/
theorem rowCell_backgroundFrom_not_mem {xs : List Nat} {row : Row} {k : Nat} (h : k ∉ xs) :
    rowCell (backgroundFrom c r m line xs row) k = rowCell row k := by
  induction xs generalizing row with
  | nil => rfl
  | cons x rest ih =>
    obtain ⟨hx, hrest⟩ := List.ne_and_not_mem_of_not_mem_cons h
    unfold backgroundFrom
    split
    · rw [ih hrest, rowCell_rowWrite_ne _ hx]
    · split
      · exact rowCell_rowWrite_ne _ hx
      · rw [ih hrest, rowCell_rowWrite_ne _ hx]

@[simp] theorem drawColumn_length (d : Descriptor) (row : Row) (col : Nat) :
    (drawColumn c r m line d row col).length = row.length := by
  unfold drawColumn
  split
  · rfl
  · split
    · rfl
    · split
      · rfl
      · exact rowModify_length ..

/-- A left fold of steps that keep a row's length keeps it. -/
theorem foldl_length {α : Type} {f : Row → α → Row} (h : ∀ row a, (f row a).length = row.length) (l : List α) (row : Row) :
    (l.foldl f row).length = row.length := by
  induction l generalizing row with
  | nil => rfl
  | cons a rest ih => rw [List.foldl_cons, ih, h]

@[simp] theorem drawSprite_length (row : Row) (d : Descriptor) : (drawSprite c r m line row d).length = row.length := by
  unfold drawSprite
  split
  · rfl
  · exact foldl_length (drawColumn_length c r m line d) _ _

@[simp] theorem renderSprites_length (row : Row) : (renderSprites c r m line row).length = row.length := by
  unfold renderSprites
  split
  · rfl
  · exact foldl_length (drawSprite_length c r m line) _ _

@[simp] theorem renderRow_length (row : Row) : (renderRow c r m line row).length = row.length := by
  rw [renderRow, renderSprites_length, renderBackground_length]

/-- Every selected descriptor was read from one of the scanned slots and lies on the line (R140). -/
theorem mem_selectFrom {room : Nat} {slots : List Nat} {d : Descriptor} (h : d ∈ selectFrom c r m line room slots) :
    onLine r line d = true ∧ ∃ i ∈ slots, d = readSlot c m i := by
  induction slots generalizing room with
  | nil => cases room <;> simp [selectFrom] at h
  | cons i rest ih =>
    cases room with
    | zero => simp [selectFrom] at h
    | succ room =>
      unfold selectFrom at h
      split at h
      · rename_i hon
        rcases List.mem_cons.mp h with rfl | h
        · exact ⟨hon, i, List.mem_cons_self, rfl⟩
        · obtain ⟨h1, j, hj, h2⟩ := ih h
          exact ⟨h1, j, List.mem_cons_of_mem _ hj, h2⟩
      · obtain ⟨h1, j, hj, h2⟩ := ih h
        exact ⟨h1, j, List.mem_cons_of_mem _ hj, h2⟩

/-- Inserting by x adds exactly the descriptor inserted. -/
theorem insertByX_perm (d : Descriptor) (l : List Descriptor) : (insertByX d l).Perm (d :: l) := by
  induction l with
  | nil => exact .refl _
  | cons e rest ih =>
    unfold insertByX
    split
    · exact .refl _
    · exact (List.Perm.cons e ih).trans (List.Perm.swap d e rest)

/-- What the framebuffer is after a tick keeps its canonical form (R25 g). -/
theorem tickAt_fb_wf {s : State} {mode : Mode} (h : s.fb.wf) : (tickAt line mode s).fb.wf := by
  rw [tickAt_fb]
  split
  · rename_i hdue
    refine fbSetRow_wf h ?_ (by rw [renderRow_length, fbRow_length h])
    exact ((renderDue_iff _ _).mp hdue).2
  · exact h

end Sys2Proof.Machine
end

