-- ==== Sys2Proof/Laws/Step.lean ====
section
/-!
SUPPORT. What an operation and a step can do, said once: every operation answers a next state (R100, R110, R190), keeps
configuration, memory and pending inputs, and a step has four cases.
-/

namespace Sys2Proof.Machine

/-- A tick that is not stopped answers `tickAt` of its line and mode (R110). -/
theorem exec_tick_false (cycles : Nat) (s : State) :
    exec (.tick cycles false) s = .next (tickAt (lineOf cycles) (modeOf cycles) s) := rfl

/-- A stopped tick puts out STOP and does no further work (R120). -/
theorem exec_tick_true (cycles : Nat) (s : State) : exec (.tick cycles true) s = .next (record (.tick .stop []) s) := rfl

/-- Every operation is total: it answers a next state (R190). -/
theorem exec_answers_next (i : Instr) (s : State) : ∃ t, exec i s = .next t := by
  cases i with
  | tick cycles closeReq =>
    cases closeReq with
    | false => exact ⟨_, exec_tick_false ..⟩
    | true => exact ⟨_, exec_tick_true ..⟩
  | _ => exact ⟨_, rfl⟩

/-- Only a tick that is not stopped touches the framebuffer (R100, R120). -/
theorem exec_fb {i : Instr} {s t : State} (h : exec i s = .next t) (hi : ∀ cycles, i ≠ .tick cycles false) :
    t.fb = s.fb := by
  cases i with
  | tick cycles closeReq =>
    cases closeReq with
    | false => exact absurd rfl (hi cycles)
    | true => rw [exec_tick_true] at h; cases h; rfl
  | _ => cases h; rfl

/-- No operation writes the configuration, the memory or the pending inputs (R19, R41). -/
theorem exec_keeps {i : Instr} {s t : State} (h : exec i s = .next t) :
    t.cfg = s.cfg ∧ t.mem = s.mem ∧ t.pending = s.pending := by
  cases i with
  | tick cycles closeReq =>
    cases closeReq with
    | false => rw [exec_tick_false] at h; cases h; exact ⟨tickAt_cfg .., tickAt_mem .., tickAt_pending ..⟩
    | true => rw [exec_tick_true] at h; cases h; exact ⟨rfl, rfl, rfl⟩
  | _ => cases h; exact ⟨rfl, rfl, rfl⟩

/-- Everything a step can do: stand still, apply a memory move, execute a decoded operation, refuse an unserved access. -/
theorem step_cases (s : State) :
    (s.pending = [] ∧ step s = .next s) ∨
    (∃ addr data rest, s.pending = .memory addr data :: rest ∧ step s = .next (envWrite addr data (dropInput s))) ∨
    (∃ op rest i, s.pending = .operation op :: rest ∧ decode s.cfg.regAddr op = .ok i ∧ step s = exec i (dropInput s)) ∨
    (∃ op rest write addr, s.pending = .operation op :: rest ∧
      decode s.cfg.regAddr op = .error (.notAnOperation write addr) ∧ step s = .refused (.notAnOperation write addr)) := by
  cases hp : s.pending with
  | nil => exact .inl ⟨rfl, by simp [step, hp]⟩
  | cons inp rest =>
    cases inp with
    | memory addr data => exact .inr (.inl ⟨addr, data, rest, rfl, by simp [step, hp]⟩)
    | operation op =>
      cases hd : decode s.cfg.regAddr op with
      | ok i => exact .inr (.inr (.inl ⟨op, rest, i, rfl, hd, by simp [step, hp, hd]⟩))
      | error e =>
        obtain ⟨write, addr⟩ := e
        exact .inr (.inr (.inr ⟨op, rest, write, addr, rfl, hd, by simp [step, hp, hd]⟩))

end Sys2Proof.Machine
end

