-- ==== Sys2Proof/Laws/Runs.lean ====
section
/-!
SUPPORT. Runs of steps and of ticks, one step at a time: what each definition over a run does at the next step or tick.
-/

namespace Sys2Proof

open Machine

/-- A run of ticks goes on from what its first tick leaves. -/
theorem execTicks_cons (c : Nat) (rest : List Nat) (s : State) :
    execTicks (c :: rest) s = execTicks rest (tickAt (lineOf c) (modeOf c) s) := by
  rw [execTicks, exec_tick_false]

/-- A run of ticks answers a next state (R190). -/
theorem execTicks_answers_next (cs : List Nat) (s : State) : ∃ t, execTicks cs s = .next t := by
  induction cs generalizing s with
  | nil => exact ⟨s, rfl⟩
  | cons c rest ih => rw [execTicks_cons]; exact ih _

/-- The first tick's line is listed when it meets R116's condition at the state before. -/
theorem renderedLines_cons (c : Nat) (rest : List Nat) (s : State) :
    renderedLines (c :: rest) s =
      (if renderDue s.reg (lineOf c) then [lineOf c] else []) ++ renderedLines rest (tickAt (lineOf c) (modeOf c) s) := by
  rw [renderedLines, exec_tick_false]
  simp only [renderDue_iff]
  rfl

/-- A tick's events count on top of what was put out before. -/
theorem eventCount_tickAt (e : Event) (line : Nat) (mode : Mode) (s : State) :
    eventCount e (tickAt line mode s).outputs = (tickEvents s.reg line mode).count e + eventCount e s.outputs := by
  rw [tickAt_outputs, eventCount]

/-- The stride bound at the first of the ticks, and from it on (R230). -/
theorem strided_cons {stride c d : Nat} {rest : List Nat} :
    strided stride c (d :: rest) = true ↔ c ≤ d ∧ d ≤ c + stride ∧ strided stride d rest = true := by
  simp [strided, and_assoc]

/-- A run of steps goes on from what its first step leaves. -/
theorem runSteps_succ_of_next {k : Nat} {s t : State} (h : step s = .next t) : runSteps (k + 1) s = runSteps k t := by
  rw [runSteps, h]

end Sys2Proof
end

