-- ==== Sys2Proof/Tests/Slice0.lean ====
section
/-!
SUPPORT. The model's own tests. Expected values come from the spec: its test vectors (95_test_vectors: S1 to S4, V1 to V108,
P1 to P5), the examples of its rules, its encoding table (R61); each test names its source. Then one witness for every
statement that has hypotheses: a concrete state and operands that meet all of them together.
-/

namespace Sys2Proof.Tests

open Machine

/-! ## Helpers -/

/-- The state an operation answers with (reset where it stops, which none does). -/
def after : Host.Outcome State Fault Refusal → State
  | .next t => t
  | .fault _ => State.reset
  | .refused _ => State.reset

/-- The reset state with other registers. -/
def bench (r : Regs) : State := { State.reset with reg := r }

/-- A memory made of the listed bytes. -/
def memOf (l : List (Nat × Byte)) : Memory := l.foldl (fun m p => memWrite m p.1 p.2) []

/-- A row written as runs: so many pixels of a colour each, as 95_test_vectors writes rows. -/
def runs (l : List (Nat × Colour)) : Row := l.flatMap fun p => List.replicate p.1 (some p.2)

def S0 : Colour := 0xFFFFFF
def S1 : Colour := 0xAAAAAA
def S2 : Colour := 0x555555
def S3 : Colour := 0x000000

/-- The identity palette, what a write of 0xE4 leaves (S2). -/
def identity : Quad Shade := ⟨0, 1, 2, 3⟩

/-- Registers for 2.8's vectors: sprites on, identity palettes. -/
def spriteRegs : Regs := { regsZero with spritesEnabled := true, bgPalette := identity, objPalette1 := identity }

/-! ## Well-formedness: the default configuration is well formed, and each check refuses an ill-formed one -/

theorem test_default_cfg_wf : cfgDefault.wf := by decide

theorem test_cfg_refuses_equal_addresses :
    ¬ Cfg.wf { cfgDefault with regAddr := { regAddrDefault with wx := 0xFF40 } } := by decide

theorem test_cfg_refuses_low_signed_base : ¬ Cfg.wf { cfgDefault with tileBaseSigned := 2047 } := by decide

theorem test_cfg_refuses_slot_size : ¬ Cfg.wf { cfgDefault with oamEntryBytes := 3 } := by decide

theorem test_cfg_refuses_narrow_framebuffer : ¬ Cfg.wf { cfgDefault with fbStride := 159 } := by decide

theorem test_cfg_refuses_short_framebuffer : ¬ Cfg.wf { cfgDefault with fbRows := 143 } := by decide

theorem test_cfg_refuses_reset_line :
    ¬ Cfg.wf { cfgDefault with reset := { regsZero with currentLine := 154 } } ∧
      ¬ Cfg.wf { cfgDefault with reset := { regsZero with prevLine := 154 } } := by decide

theorem test_cfg_refuses_reset_palette :
    ¬ Cfg.wf { cfgDefault with reset := { regsZero with objPalette1 := ⟨1, 0, 0, 0⟩ } } ∧
      ¬ Cfg.wf { cfgDefault with reset := { regsZero with objPalette2 := ⟨3, 0, 0, 0⟩ } } := by decide

/-- An operation is well formed at the extremes of its operands (R76, R111): no operation has an ill-formed operand. -/
theorem test_operations_wf : (Instr.wrLcdc 0xFF).wf = true ∧ (Instr.tick (2 ^ 70) true).wf = true := by decide

/-! ## Decoding: a word of every row of R61, written out as rw, address, data -/

theorem test_decode_wrLcdc : decodeTableWord 25 0b1_1111111101000000_10010001 = some (.wrLcdc 0b10010001) := by decide
theorem test_decode_wrStat : decodeTableWord 25 0b1_1111111101000001_01101000 = some (.wrStat 0b01101000) := by decide
theorem test_decode_wrScy : decodeTableWord 25 0b1_1111111101000010_00000011 = some (.wrScy 0b00000011) := by decide
theorem test_decode_wrScx : decodeTableWord 25 0b1_1111111101000011_11111100 = some (.wrScx 0b11111100) := by decide
theorem test_decode_wrLyc : decodeTableWord 25 0b1_1111111101000101_00000001 = some (.wrLyc 0b00000001) := by decide
theorem test_decode_wrBgp : decodeTableWord 25 0b1_1111111101000111_00011011 = some (.wrBgp 0b00011011) := by decide
theorem test_decode_wrObp0 : decodeTableWord 25 0b1_1111111101001000_11100100 = some (.wrObp0 0b11100100) := by decide
theorem test_decode_wrObp1 : decodeTableWord 25 0b1_1111111101001001_00011011 = some (.wrObp1 0b00011011) := by decide
theorem test_decode_wrWy : decodeTableWord 25 0b1_1111111101001010_01100100 = some (.wrWy 0b01100100) := by decide
theorem test_decode_wrWx : decodeTableWord 25 0b1_1111111101001011_01010111 = some (.wrWx 0b01010111) := by decide

/-- The read's data bits are ignored (R61): all ones here. -/
theorem test_decode_rdStat : decodeTableWord 25 0b0_1111111101000001_11111111 = some .rdStat := by decide
theorem test_decode_rdLy : decodeTableWord 25 0b0_1111111101000100_00000000 = some .rdLy := by decide
theorem test_decode_rdLyc : decodeTableWord 25 0b0_1111111101000101_00000000 = some .rdLyc := by decide

/-- The row TICK has one bit, `q` (R80); in whole bytes eight. -/
theorem test_decode_tick : decodeTableWord 8 0 = some (.tick 0 false) ∧ decodeTableWord 8 1 = some (.tick 0 true) := by decide

/-- R75's unserved accesses: a read of the control register, a write to the line register, any access to 0xFF46. -/
theorem test_decode_unserved :
    decodeTableWord 25 0x0FF4000 = none ∧ decodeTableWord 25 0x1FF4412 = none ∧ decodeTableWord 25 0x1FF4600 = none ∧
      decodeTableWord 25 0x0FF4600 = none := by decide

/-- The words of 95_test_vectors P1 to P5 are what the encoder sends. -/
theorem test_encode_programs :
    encode regAddrDefault (.wrStat 0x68) = .bus 0x1FF4168 ∧ encode regAddrDefault (.wrScx 0xFC) = .bus 0x1FF43FC ∧
      encode regAddrDefault (.wrObp0 0xE4) = .bus 0x1FF48E4 ∧ encode regAddrDefault (.wrWx 0x57) = .bus 0x1FF4B57 ∧
      encode regAddrDefault .rdStat = .bus 0x0FF4100 := by decide

/-! ## Register writes and reads -/

/-- S1. -/
theorem test_wrLcdc_91 : (after (exec (.wrLcdc 0x91) State.reset)).reg =
    { regsZero with bgEnabled := true, bgTiledataSelect := true, lcdEnabled := true } := by decide

/-- V3: the five flags that S1 leaves false. -/
theorem test_wrLcdc_6E : (after (exec (.wrLcdc 0x6E) (bench { regsZero with bgEnabled := true }))).reg =
    { regsZero with spritesEnabled := true, spriteSize := true, tilemapSelect := true, windowEnabled := true,
                    windowTilemapSelect := true } := by decide

/-- V8. -/
theorem test_wrStat_48 : (after (exec (.wrStat 0x48) State.reset)).reg =
    { regsZero with lyInt := true, hblankInt := true } := by decide

/-- V7: the written bits 2, 1, 0 are ignored. -/
theorem test_wrStat_07 : (after (exec (.wrStat 0x07) State.reset)).reg = regsZero := by decide

/-- V16. -/
theorem test_wrScx_FD : (after (exec (.wrScx 0xFD) State.reset)).reg = { regsZero with scrollX := 253 } := by decide
theorem test_wrScy_F0 : (after (exec (.wrScy 0xF0) State.reset)).reg = { regsZero with scrollY := 240 } := by decide
theorem test_wrWx_07 : (after (exec (.wrWx 0x07) State.reset)).reg = { regsZero with windowX := 7 } := by decide
theorem test_wrWy_90 : (after (exec (.wrWy 0x90) State.reset)).reg = { regsZero with windowY := 144 } := by decide

/-- V10. -/
theorem test_wrLyc_FF : (after (exec (.wrLyc 0xFF) State.reset)).reg = { regsZero with lineCompare := 255 } := by decide

/-- S2, V11. -/
theorem test_wrBgp_E4 : (after (exec (.wrBgp 0xE4) State.reset)).reg.bgPalette = ⟨0, 1, 2, 3⟩ := by decide
theorem test_wrBgp_1B : (after (exec (.wrBgp 0x1B) State.reset)).reg.bgPalette = ⟨3, 2, 1, 0⟩ := by decide

/-- V13, V15. -/
theorem test_wrObp0_FF : (after (exec (.wrObp0 0xFF) State.reset)).reg.objPalette1 = ⟨0, 3, 3, 3⟩ := by decide
theorem test_wrObp0_1B : (after (exec (.wrObp0 0x1B) State.reset)).reg.objPalette1 = ⟨0, 2, 1, 0⟩ := by decide

/-- V14; the other table stays (R99). -/
theorem test_wrObp1_E7 : (after (exec (.wrObp1 0xE7) State.reset)).reg =
    { regsZero with objPalette2 := ⟨0, 1, 2, 3⟩ } := by decide

/-- V5: status at reset. -/
theorem test_rdStat_reset : (after (exec .rdStat State.reset)).outputs = [.read 0x84] := by decide

/-- V18: line 150 in V-blank, compare 150, `ly_int` set. -/
theorem test_rdStat_C5 :
    (after (exec .rdStat (bench { regsZero with
      lyInt := true, lineCompare := 0x96, currentLine := 150, lcdMode := .vblank }))).outputs = [.read 0xC5] := by decide

/-- V17, R102's example. -/
theorem test_rdLy : (after (exec .rdLy (bench { regsZero with currentLine := 150, lineCompare := 7 }))).outputs =
    [.read 0x96] := by decide

/-- V10, R103's example. -/
theorem test_rdLyc : (after (exec .rdLyc (bench { regsZero with currentLine := 150, lineCompare := 0xFF }))).outputs =
    [.read 0xFF] := by decide

/-! ## Line, position, mode: V21 to V36 -/

theorem test_lines_and_positions :
    lineOf 113 = 0 ∧ linePosition 113 = 113 ∧ lineOf 114 = 1 ∧ linePosition 114 = 0 ∧ lineOf 16415 = 143 ∧
      lineOf 16416 = 144 ∧ lineOf 17555 = 153 ∧ lineOf 17556 = 0 ∧ lineOf 69773 = 150 ∧ linePosition 69773 = 5 ∧
      lineOf 1000000 = 147 ∧ linePosition 1000000 = 106 ∧ lineOf 35930 = 7 ∧ linePosition 35930 = 20 := by decide

theorem test_modes :
    [0, 19, 20, 62, 63, 113, 114, 16415, 16416, 16435, 16480, 17555, 17556, 69773, 1000000, 35930].map modeOf =
      [.oamSearch, .oamSearch, .pixelTransfer, .pixelTransfer, .hblank, .hblank, .oamSearch, .hblank, .vblank, .vblank,
       .vblank, .vblank, .oamSearch, .vblank, .vblank, .pixelTransfer] := by decide

/-! ## Interrupt evaluation: V37 to V49; render trigger and frame boundary: V50 to V59 -/

/-- The evaluation at a row of 2.3: enables ly, hb, vb, oam; compare value; mode before; line; mode. -/
def statRow (ly hb vb oam : Bool) (lyc : Byte) (prev : Mode) (line : Nat) (mode : Mode) : Option StatSource :=
  statSource { regsZero with lyInt := ly, hblankInt := hb, vblankInt := vb, oamInt := oam, lineCompare := lyc,
                             prevMode := prev } line mode

theorem test_stat_requests :
    statRow true false false false 5 .hblank 5 .hblank = some .coincidence ∧
      statRow true true false false 5 .pixelTransfer 5 .hblank = some .coincidence ∧
      statRow false true false false 5 .pixelTransfer 5 .hblank = some .hblankEntry ∧
      statRow false true false false 5 .vblank 0 .hblank = some .hblankEntry ∧
      statRow false false true false 0 .hblank 144 .vblank = some .vblankEntry ∧
      statRow false false false true 9 .hblank 6 .oamSearch = some .oamEntry ∧
      statRow true true true true 200 .hblank 6 .oamSearch = some .oamEntry := by decide

theorem test_stat_silent :
    statRow false false false false 5 .pixelTransfer 5 .hblank = none ∧
      statRow false true false false 5 .hblank 5 .hblank = none ∧
      statRow false false true false 0 .vblank 145 .vblank = none ∧
      statRow false false false true 9 .oamSearch 7 .oamSearch = none ∧
      statRow false true true true 200 .pixelTransfer 5 .pixelTransfer = none := by decide

theorem test_render_trigger :
    [(4, 5), (5, 5), (143, 144), (142, 144), (153, 0), (10, 3), (0, 0), (144, 143)].map
        (fun p : Byte × Nat => renderDue { regsZero with prevLine := p.1 } p.2) =
      [true, false, false, false, true, true, false, true] := by decide

theorem test_frame_boundary :
    [(143, 144), (142, 144), (143, 145), (143, 143), (144, 143)].map
        (fun p : Byte × Nat => frameEvents { regsZero with prevLine := p.1 } p.2) =
      [[.present, .request .vblank], [], [], [], []] := by decide

/-! ## Selection and order: V60 to V74 -/

/-- The slots selected from a table of stored bytes by address. -/
def slotsOn (tall : Bool) (line : Nat) (table : List (Nat × Byte)) : List Nat :=
  (selectSprites cfgDefault { regsZero with spriteSize := tall } (memOf table) line).map (·.slot)

def tableV60 : List (Nat × Byte) := [(0xFE00, 19), (0xFE04, 26), (0xFE08, 18), (0xFE0C, 27)]

def tableV62 : List (Nat × Byte) := [(0xFE00, 1), (0xFE04, 8), (0xFE0C, 16), (0xFE10, 159), (0xFE14, 160)]

theorem test_select_V60_V61 : slotsOn false 10 tableV60 = [0, 1] ∧ slotsOn true 10 tableV60 = [0, 1, 2] := by
  decide +kernel

theorem test_select_V62_to_V67 :
    slotsOn false 0 tableV62 = [3] ∧ slotsOn true 0 tableV62 = [0, 1, 3] ∧ slotsOn true 7 tableV62 = [1, 3] ∧
      slotsOn true 8 tableV62 = [3] ∧ slotsOn false 8 tableV62 = [] ∧ slotsOn false 143 tableV62 = [4] := by
  decide +kernel

/-- V68: twelve slots on the line, the first ten taken. -/
theorem test_select_V68 :
    slotsOn false 0 ((List.range 12).map fun i => (0xFE00 + 4 * i, 16)) = [0, 1, 2, 3, 4, 5, 6, 7, 8, 9] := by
  decide +kernel

/-- P4's slot 1: y 0, x 4, tile 3, flags 0x10, from four different bytes. -/
theorem test_read_slot :
    readSlot cfgDefault [(0xFE04, 0x10), (0xFE05, 0x0C), (0xFE06, 0x03), (0xFE07, 0x10)] 1 = ⟨0, 4, 3, 0x10, 1⟩ := by decide

/-- A descriptor of which only slot and x matter. -/
def at_ (slot : Nat) (x : Int) : Descriptor := ⟨0, x, 0, 0, slot⟩

/-- V71, V72, V74. -/
theorem test_order :
    orderSprites [at_ 0 20, at_ 1 50, at_ 2 20, at_ 3 (-8)] = [at_ 1 50, at_ 0 20, at_ 2 20, at_ 3 (-8)] ∧
      orderSprites [at_ 0 5, at_ 1 5, at_ 2 5] = [at_ 0 5, at_ 1 5, at_ 2 5] ∧
      orderSprites [at_ 0 10, at_ 1 11, at_ 2 12] = [at_ 2 12, at_ 1 11, at_ 0 10] := by decide

/-! ## Background and window fetch: V76 to V90 -/

theorem test_layer_points :
    cellAddr (backgroundPoint cfgDefault { regsZero with scrollX := 100, scrollY := 250 } 10 159) = 0x9800 ∧
      cellAddr (backgroundPoint cfgDefault { regsZero with scrollX := 255, scrollY := 255 } 0 0) = 0x9BFF ∧
      (backgroundPoint cfgDefault { regsZero with scrollX := 255 } 7 1).tx = 0 ∧
      cellAddr (backgroundPoint cfgDefault { regsZero with tilemapSelect := true } 143 159) = 0x9E33 ∧
      cellAddr (windowPoint cfgDefault { regsZero with windowY := 100, windowTilemapSelect := true } 109 17) = 0x9C22 := by
  decide

/-- V80, V81 (row 7 adds 14). -/
theorem test_tile_addresses :
    [0x00, 0x7F, 0x80, 0xFF].map (tileAddr cfgDefault false) = [0x9000, 0x97F0, 0x8800, 0x8FF0] ∧
      [0x00, 0x7F, 0x80, 0xFF].map (fun i => tileAddr cfgDefault true i + 14) = [0x800E, 0x87FE, 0x880E, 0x8FFE] := by
  decide

/-- V82. -/
theorem test_colour_indices :
    (List.range 8).map (fun col => colourIndex 0x3C 0x7E (7 - col)) = [0, 2, 3, 3, 3, 3, 2, 0] := by decide

/-- V85, V86, V87. -/
theorem test_window_band :
    windowActive { regsZero with windowEnabled := true, windowY := 100 } 99 = false ∧
      windowActive { regsZero with windowEnabled := true, windowY := 100 } 100 = true ∧
      windowActive { regsZero with windowEnabled := true, windowX := 0x57 } 0 = true ∧
      windowActive { regsZero with windowEnabled := true, windowY := 144 } 143 = false := by decide

/-- V88, V89: background off, entry 0 of the palette 2. -/
theorem test_background_disabled :
    renderBackground cfgDefault { regsZero with bgPalette := ⟨2, 0, 0, 0⟩ } [] 5 (runs [(160, S1)]) =
        runs [(1, S2), (159, S1)] ∧
      renderBackground { cfgDefault with bgDisabledAbort := false } { regsZero with bgPalette := ⟨2, 0, 0, 0⟩ } [] 5
        (runs [(160, S1)]) = runs [(160, S2)] := by decide +kernel

/-! ## The sprite pass: V91 to V108 -/

/-- Row 0 after the sprite pass, from a row, for slots given as y, x, tile, flags and two bitplane bytes of tile 2's row 0. -/
def spriteRow0 (r : Regs) (byte1 byte2 x flags : Byte) (row : Row) : Row :=
  renderSprites cfgDefault r
    (memOf [(0x8020, byte1), (0x8021, byte2), (0xFE00, 16), (0xFE01, x), (0xFE02, 2), (0xFE03, flags)]) 0 row

/-- V91 (S3), V92, V93, V94, V95, V96. -/
theorem test_sprite_clipping :
    spriteRow0 spriteRegs 0xFF 0 5 0 (runs [(160, S0)]) = runs [(5, S1), (155, S0)] ∧
      spriteRow0 spriteRegs 0xFF 0 0 0 (runs [(160, S0)]) = runs [(160, S0)] ∧
      spriteRow0 spriteRegs 0xFF 0 1 0 (runs [(160, S0)]) = runs [(1, S1), (159, S0)] ∧
      spriteRow0 spriteRegs 0xFF 0 164 0 (runs [(160, S0)]) = runs [(156, S0), (4, S1)] ∧
      spriteRow0 spriteRegs 0xFF 0 167 0 (runs [(160, S0)]) = runs [(159, S0), (1, S1)] ∧
      spriteRow0 spriteRegs 0xFF 0 168 0 (runs [(160, S0)]) = runs [(160, S0)] := by decide +kernel

/-- V97, V98, V99: horizontal flip, transparency, palette 2. -/
theorem test_sprite_flip_and_palette :
    spriteRow0 spriteRegs 0x80 0 8 0 (runs [(160, S0)]) = runs [(1, S1), (159, S0)] ∧
      spriteRow0 spriteRegs 0x80 0 8 0x20 (runs [(160, S0)]) = runs [(7, S0), (1, S1), (152, S0)] ∧
      spriteRow0 spriteRegs 0 0 8 0 (runs [(160, S0)]) = runs [(160, S0)] ∧
      spriteRow0 { spriteRegs with objPalette2 := ⟨0, 3, 3, 3⟩ } 0xFF 0 8 0x10 (runs [(160, S0)]) =
        runs [(8, S3), (152, S0)] := by decide +kernel

/-- V100, V101, V102: background priority, the colour it compares with, the gate. -/
theorem test_sprite_priority_and_gate :
    spriteRow0 spriteRegs 0xFF 0 8 0x80 (runs [(4, S0), (4, S2), (152, S0)]) = runs [(4, S1), (4, S2), (152, S0)] ∧
      spriteRow0 { spriteRegs with bgPalette := ⟨0, 1, 0, 3⟩ } 0xFF 0 8 0x80 (runs [(160, S0)]) =
        runs [(8, S1), (152, S0)] ∧
      spriteRow0 { spriteRegs with spritesEnabled := false } 0xFF 0 8 0 (runs [(160, S0)]) = runs [(160, S0)] := by
  decide +kernel

/-- V103, V104, V105: the rows fetched in 8×16 mode. -/
theorem test_tall_sprite_rows :
    spriteRowAddr cfgDefault { regsZero with spriteSize := true } ⟨40, 0, 2, 0x00, 0⟩ 43 = 0x8026 ∧
      spriteRowAddr cfgDefault { regsZero with spriteSize := true } ⟨40, 0, 2, 0x40, 0⟩ 43 = 0x8038 ∧
      spriteRowAddr cfgDefault { regsZero with spriteSize := true } ⟨0, 0, 255, 0, 0⟩ 15 = 0x900E ∧
      spriteRowAddr cfgDefault { regsZero with spriteSize := true } ⟨0, 0, 3, 0, 0⟩ 8 = 0x8040 := by decide

/-- Row 0 for two sprites, slot 0 with tile 2 (index 1 throughout), slot 1 with tile 3 (index 2 throughout). -/
def twoSprites (x0 x1 flags1 : Byte) : Row :=
  renderSprites cfgDefault spriteRegs
    (memOf [(0x8020, 0xFF), (0x8031, 0xFF), (0xFE00, 16), (0xFE01, x0), (0xFE02, 2), (0xFE04, 16), (0xFE05, x1),
      (0xFE06, 3), (0xFE07, flags1)]) 0 (runs [(160, S0)])

/-- V106, V107, V108. -/
theorem test_two_sprites :
    twoSprites 36 33 0 = runs [(25, S0), (8, S2), (3, S1), (124, S0)] ∧
      twoSprites 20 20 0 = runs [(12, S0), (8, S2), (140, S0)] ∧
      twoSprites 20 16 0x80 = runs [(8, S0), (4, S2), (8, S1), (140, S0)] := by decide +kernel

/-! ## Ticks of the spec's programs -/

/-- P3: background with scroll wrap, signed tile data, inverting palette. -/
def stateP3 : State :=
  { bench { regsZero with bgEnabled := true, lcdEnabled := true, bgPalette := ⟨3, 2, 1, 0⟩, scrollX := 0xFC, scrollY := 3 }
    with mem := memOf [(0x9800, 0x80), (0x981F, 0x01), (0x880A, 0x3C), (0x880B, 0x7E), (0x901A, 0xFF)] }

theorem test_tick_P3 : fbRow (after (exec (.tick 228 false) stateP3)).fb 2 =
    runs [(4, S2), (1, S3), (1, S1), (4, S0), (1, S1), (149, S3)] := by decide +kernel

/-- P4: sprites in order, tie, priority, flip, palettes, left clip; the state after `TICK 17555`. -/
def stateP4 : State :=
  { bench { regsZero with bgEnabled := true, spritesEnabled := true, bgTiledataSelect := true, lcdEnabled := true,
                          bgPalette := identity, objPalette1 := identity, objPalette2 := ⟨0, 2, 1, 0⟩, currentLine := 153,
                          lcdMode := .vblank, prevLine := 153, prevMode := .vblank }
    with mem := memOf ([(0x9801, 1)] ++ (List.range 16).map (fun i => (0x8010 + i, 0xFF)) ++
      [(0x8020, 0xFF), (0x8030, 0xF0), (0x8031, 0xFF), (0x8040, 0x01)] ++
      [(0xFE00, 0x10), (0xFE01, 0x0E), (0xFE02, 2), (0xFE03, 0x80)] ++
      [(0xFE04, 0x10), (0xFE05, 0x0C), (0xFE06, 3), (0xFE07, 0x10)] ++
      [(0xFE08, 0x10), (0xFE09, 0x0C), (0xFE0A, 4), (0xFE0B, 0x20)] ++ [(0xFE0C, 0x10), (0xFE0D, 0x05), (0xFE0E, 2)]) }

theorem test_tick_P4 : fbRow (after (exec (.tick 17556 false) stateP4)).fb 0 =
    runs [(5, S1), (3, S0), (4, S1), (4, S3), (144, S0)] := by decide +kernel

/-- P5: the window over a disabled background. -/
def stateP5 : State :=
  { bench { regsZero with windowEnabled := true, windowTilemapSelect := true, bgPalette := identity, windowY := 100,
                          windowX := 0x57 }
    with mem := memOf [(0x9C22, 0x7F), (0x97F2, 0x40), (0x97F3, 0x40)] }

theorem test_tick_P5 : fbRow (after (exec (.tick 12426 false) stateP5)).fb 109 = runs [(17, S0), (1, S3), (142, S0)] := by
  decide +kernel

/-- P2: the frame boundary with `vblank_int`; the state after `TICK 16415`. -/
theorem test_tick_P2 :
    (after (exec (.tick 16416 false) (bench { regsZero with
      vblankInt := true, currentLine := 143, prevLine := 143 }))).outputs =
      [.tick .cont [.request .lcdStat, .present, .request .vblank]] := by decide

/-- P2, R120: the stopped tick. -/
theorem test_tick_close : (after (exec (.tick 16600 true) (bench { regsZero with prevLine := 145 }))).reg =
    { regsZero with prevLine := 145 } ∧
      (after (exec (.tick 16600 true) (bench regsZero))).outputs = [.tick .stop []] := by decide

/-- R221: the first tick after reset, at 0, leaves mode 2 and renders nothing. -/
theorem test_first_tick : (after (exec (.tick 0 false) State.reset)).reg =
    { regsZero with lcdMode := .oamSearch, prevMode := .oamSearch } ∧
      (after (exec (.tick 0 false) State.reset)).fb = [] := by decide

/-! ## Steps and memory -/

/-- A presented word runs at the next step (R50). -/
theorem test_step_runs_word : (after (step (State.reset.withFetchWord 25 0x1FF4091))).reg =
    (after (exec (.wrLcdc 0x91) State.reset)).reg := by decide

/-- R75: an unserved access is refused under its direction and address. -/
theorem test_step_refuses : step (State.reset.withFetchWord 25 0x1FF4412) = .refused (.notAnOperation true 0xFF44) := rfl

/-- With nothing pending a step changes nothing (R12, log entry 5). -/
theorem test_step_idle : step State.reset = .next State.reset := rfl

/-- Memory: the byte written is read, its neighbour is not, the default byte written lists nothing. -/
theorem test_memory :
    memRead (memOf [(0x9800, 0x80), (0x8000, 7)]) 0x9800 = 0x80 ∧ memRead (memOf [(0x9800, 0x80)]) 0x9801 = 0 ∧
      memOf [(0x9800, 0x80), (0x8000, 7)] = [(0x8000, 7), (0x9800, 0x80)] ∧ memWrite [(5, 1)] 5 0 = [] := by decide

/-- `Memory.wf` refuses an order that does not rise, a repeated address, an entry equal to the default. -/
theorem test_memory_wf :
    Memory.wf [(1, 2), (3, 4)] ∧ ¬ Memory.wf [(3, 4), (1, 2)] ∧ ¬ Memory.wf [(1, 2), (1, 3)] ∧ ¬ Memory.wf [(1, 0)] := by
  decide

/-- `Framebuffer.wf` refuses a row past 143, a row of 159 columns, a row without a written pixel. -/
theorem test_framebuffer_wf :
    Framebuffer.wf [(143, runs [(160, S0)])] ∧ ¬ Framebuffer.wf [(144, runs [(160, S0)])] ∧
      ¬ Framebuffer.wf [(0, runs [(159, S0)])] ∧ ¬ Framebuffer.wf [(0, rowBlank)] := by decide +kernel

/-! ## Witnesses: for each statement with hypotheses, a state and operands that meet all of them together -/

/-- A state with inputs waiting. -/
def waiting (l : List Input) : State := { State.reset with pending := l }

theorem witness_StepRunsTheDecodedOperation :
    (waiting [.operation (.bus 0x1FF4091), .memory 0 1]).pending = .operation (.bus 0x1FF4091) :: [.memory 0 1] ∧
      decode (waiting [.operation (.bus 0x1FF4091), .memory 0 1]).cfg.regAddr (.bus 0x1FF4091) = .ok (.wrLcdc 0x91) :=
  ⟨rfl, rfl⟩

theorem witness_PresentedTableWordRunsNext :
    stateP3.cfg.regAddr = regAddrDefault ∧ decodeTableWord 25 0x1FF4203 = some (.wrScy 3) ∧
      decodeTableWord 8 1 = some (.tick 0 true) := by decide

/-- First clause: a byte of a memory that lists something, at address 0 and with the unlisted byte; second: reset. -/
theorem witness_EnvironmentMovesChangeOneByteOnly :
    ({ stateP3 with pending := [.memory 0x9800 0] }).mem.wf ∧
      ({ stateP3 with pending := [.memory 0x9800 0] }).pending = .memory 0x9800 0 :: [] ∧
      State.reset.pending = [] := by decide +kernel

/-- Both clauses, at the two ends of the address range next to served addresses: 0xFF40 written, 0xFF40 read. -/
theorem witness_ExactlyUnservedAccessesAreRefused :
    (waiting [.operation (.bus 0x0FF4000)]).pending = .operation (.bus 0x0FF4000) :: [] ∧
      ¬ Served cfgDefault.regAddr 0x0FF4000 ∧ Served cfgDefault.regAddr 0x1FF4000 := by decide

theorem witness_BlockNeverWritesMemoryOrConfiguration :
    step (waiting [.operation (.bus 0x1FF4203)]) = .next (bench { regsZero with scrollY := 3 }) ∧
      ∀ addr data, (waiting [.operation (.bus 0x1FF4203)]).pending.head? ≠ some (.memory addr data) :=
  ⟨rfl, fun _ _ h => by cases h⟩

theorem witness_DecodeOfEncodeGivesTheOperationBack : regAddrDefault.wf ∧ (Instr.wrWx 0xFF).wf = true := by decide

/-- A write, and a read whose ignored data bits are not 0. -/
theorem witness_DecodedWordIsTheOperationsWord :
    decode regAddrDefault (.bus 0x1FF4BFF) = .ok (.wrWx 0xFF) ∧ decode regAddrDefault (.bus 0x0FF45FF) = .ok .rdLyc :=
  ⟨rfl, rfl⟩

theorem witness_ControlByteRoundTrips :
    ∃ t, exec (.wrLcdc 0x91) State.reset = .next t ∧ exec (.wrLcdc 0x91) State.reset = .next t := ⟨_, rfl, rfl⟩

theorem witness_ByteRegistersStoreTheByteUnchanged :
    exec (.wrLyc 0xFF) State.reset = .next (bench { regsZero with lineCompare := 0xFF }) := rfl

/-- A state of the invariant on the last line. -/
theorem witness_ReadLineAnswersTheLatchedLine : (bench { regsZero with currentLine := 153 }).Inv := by decide

/-- A write and a read: each inner clause. -/
theorem witness_RegisterOperationsHaveNoSideEffect :
    (∀ cycles closeReq, Instr.wrLyc 7 ≠ .tick cycles closeReq) ∧ Instr.wrLyc 7 ≠ .rdStat ∧ Instr.wrLyc 7 ≠ .rdLy ∧
      Instr.wrLyc 7 ≠ .rdLyc ∧ ∀ cycles closeReq, Instr.rdLy ≠ .tick cycles closeReq :=
  ⟨fun _ _ h => (by cases h), by decide, by decide, by decide, fun _ _ h => (by cases h)⟩

/-- A write and a read: each inner clause. -/
theorem witness_RegisterOperationsAreIdempotent :
    (∀ cycles closeReq, Instr.wrLyc 7 ≠ .tick cycles closeReq) ∧
      exec (.wrLyc 7) State.reset = .next (bench { regsZero with lineCompare := 7 }) ∧
      (Instr.wrLyc 7 ≠ .rdStat ∧ Instr.wrLyc 7 ≠ .rdLy ∧ Instr.wrLyc 7 ≠ .rdLyc) ∧
      (∀ cycles closeReq, Instr.rdStat ≠ .tick cycles closeReq) ∧
      exec .rdStat State.reset = .next { State.reset with outputs := [.read 0x84] } :=
  ⟨fun _ _ h => (by cases h), rfl, by decide, fun _ _ h => (by cases h), rfl⟩

/-- A read: it meets every clause's condition at once. -/
theorem witness_FieldsChangeOnlyByTheirOwnOperation :
    exec .rdLyc State.reset = .next { State.reset with outputs := [.read 0] } ∧ (∀ d, Instr.rdLyc ≠ .wrLcdc d) ∧
      (∀ d, Instr.rdLyc ≠ .wrStat d) ∧ ∀ c, Instr.rdLyc ≠ .tick c false :=
  ⟨rfl, fun _ h => (by cases h), fun _ h => (by cases h), fun _ h => (by cases h)⟩

/-- The last position of the last line, and the map's boundaries 19, 20, 62, 63 on line 143. -/
theorem witness_ModeMapByLineAndPosition :
    153 < 154 ∧ 113 < 114 ∧
      [114 * 143 + 19, 114 * 143 + 20, 114 * 143 + 62, 114 * 143 + 63, 114 * 144, 114 * 153 + 113].map modeOf =
        [.oamSearch, .pixelTransfer, .pixelTransfer, .hblank, .vblank, .vblank] := by decide

/-- A tick for each of the four conditions, one for none, and one on the frame boundary. -/
theorem witness_TickEmitsExactlyItsEvents :
    (after (exec (.tick 570 false) (bench { regsZero with lyInt := true, lineCompare := 5 }))).outputs =
        [.tick .cont [.request .lcdStat]] ∧
      (after (exec (.tick 63 false) (bench { regsZero with hblankInt := true, prevMode := .pixelTransfer }))).outputs =
        [.tick .cont [.request .lcdStat]] ∧
      (after (exec (.tick 17555 false) (bench { regsZero with vblankInt := true }))).outputs =
        [.tick .cont [.request .lcdStat]] ∧
      (after (exec (.tick 0 false) (bench { regsZero with oamInt := true }))).outputs = [.tick .cont [.request .lcdStat]] ∧
      (after (exec (.tick 20 false) (bench { regsZero with oamInt := true, hblankInt := true }))).outputs = [.tick .cont []] ∧
      (after (exec (.tick 16416 false) (bench { regsZero with prevLine := 143 }))).outputs =
        [.tick .cont [.present, .request .vblank]] := by decide

/-- The V-blank entry on the coincidence line 144, then a tick on line 145. -/
theorem witness_EntryHiddenByCoincidenceIsLost :
    (bench { regsZero with lyInt := true, lineCompare := 144, vblankInt := true }).reg.lyInt = true ∧
      16416 % 17556 / 114 = (144 : Byte).toNat ∧ 16530 % 17556 / 114 ≠ (144 : Byte).toNat ∧ modeOf 16530 = modeOf 16416 := by
  decide

theorem witness_SecondTickAtOneCounterValue : ∃ t, exec (.tick 0 false) State.reset = .next t := ⟨_, rfl⟩

/-- A framebuffer that lists a row; a changed visible line (the last), and a line that is not visible (the first). -/
theorem witness_TickRendersTheChangedVisibleLine :
    Framebuffer.wf [(143, runs [(160, S1)])] ∧
      (16415 % 17556 / 114 ≠ stateP4.reg.prevLine.toNat ∧ 16415 % 17556 / 114 < 144) ∧
      ¬ (16416 % 17556 / 114 ≠ stateP4.reg.prevLine.toNat ∧ 16416 % 17556 / 114 < 144) := by decide +kernel

theorem witness_PresentedFrameIsLeftByEarlierTicks :
    ∃ t, exec (.tick 16416 false) (bench { regsZero with prevLine := 143 }) = .next t ∧
      t.outputs = .tick .cont [.present, .request .vblank] :: State.reset.outputs ∧
      .present ∈ [Event.present, .request .vblank] := ⟨_, rfl, by decide, by decide⟩

/-- The tick to line 1 after reset changes row 1. -/
theorem witness_OnlyTheTicksOwnRowChanges :
    ∃ t, step (waiting [.operation (.tick 114 false)]) = .next t ∧ fbRow t.fb 1 ≠ fbRow State.reset.fb 1 :=
  ⟨_, rfl, by decide +kernel⟩

/-- Ticks one whole line apart, the largest advance allowed, across the end of a frame. -/
theorem witness_EveryVisibleLineIsRenderedInOrder :
    strided 114 16301 [16415, 16529, 16643] = true ∧
      (bench { regsZero with prevLine := 142 }).reg.prevLine.toNat = 16301 % 17556 / 114 := by decide

theorem witness_EveryFrameBoundaryIsSeenOnce :
    strided 114 16415 [16416, 16416, 16530] = true ∧
      (bench { regsZero with prevLine := 143 }).reg.prevLine.toNat = 16415 % 17556 / 114 := by decide

/-- Both clauses, each at its largest advance. -/
theorem witness_EveryModeEntryIsRequestedOnce :
    (bench { regsZero with hblankInt := true, prevMode := .pixelTransfer }).reg.prevMode = modeOf 62 ∧
      strided 51 62 [113, 164, 215] = true ∧
      (bench { regsZero with oamInt := true }).reg.prevMode = modeOf 113 ∧ strided 20 113 [133, 153] = true ∧
      (bench { regsZero with oamInt := true }).reg.lyInt = false ∧
      (bench { regsZero with oamInt := true }).reg.vblankInt = false := by decide

/-- The state before a frame, with chosen enables. -/
def beforeFrame (ly hb vb oam : Bool) : State :=
  bench { regsZero with lyInt := ly, hblankInt := hb, vblankInt := vb, oamInt := oam, lineCompare := 153, prevLine := 153,
                        prevMode := .vblank }

/-- The two premises hold in each of the four states that have one enable alone; the enables are as the clauses ask. -/
theorem witness_OneFrameAtStrideOne :
    ∀ e ∈ [(false, false, false, true), (false, true, false, false), (false, false, true, false), (true, false, false, false)],
      (beforeFrame e.1 e.2.1 e.2.2.1 e.2.2.2).reg.prevLine = 153 ∧
        (beforeFrame e.1 e.2.1 e.2.2.1 e.2.2.2).reg.prevMode = .vblank ∧
        (beforeFrame e.1 e.2.1 e.2.2.1 e.2.2.2).reg.lyInt = e.1 ∧
        (beforeFrame e.1 e.2.1 e.2.2.1 e.2.2.2).reg.hblankInt = e.2.1 ∧
        (beforeFrame e.1 e.2.1 e.2.2.1 e.2.2.2).reg.vblankInt = e.2.2.1 ∧
        (beforeFrame e.1 e.2.1 e.2.2.1 e.2.2.2).reg.oamInt = e.2.2.2 := by decide

/-- A window pixel on the band's first line, and a background pixel at the last column. -/
theorem witness_BackgroundAndWindowPixels :
    (runs [(160, S0)]).length = 160 ∧ 159 < 160 ∧
      (({ stateP5.reg with windowY := 109 } : Regs).windowEnabled = true ∧
        ({ stateP5.reg with windowY := 109 } : Regs).windowY.toNat ≤ 109) ∧ stateP3.reg.bgEnabled = true := by decide +kernel

/-- No window (the line above the band), background off. -/
theorem witness_BackgroundDisabledLine :
    (runs [(160, S0)]).length = 160 ∧ 0 < 160 ∧
      ¬ (stateP5.reg.windowEnabled = true ∧ stateP5.reg.windowY.toNat ≤ 99) ∧ stateP5.reg.bgEnabled = false := by
  decide +kernel

theorem witness_OrdererSortsStablyByDescendingX :
    [at_ 0 20, at_ 1 50, at_ 2 20].Pairwise (fun p q => p.slot < q.slot) := by decide

theorem witness_SpritePassPixelByPixel : (runs [(160, S0)]).length = 160 ∧ 159 < 160 := by decide +kernel

/-- V107: the higher of two slots at one x shows at column 12. -/
theorem witness_FrontSpriteShows :
    let m := memOf [(0x8020, 0xFF), (0x8031, 0xFF), (0xFE00, 16), (0xFE01, 20), (0xFE02, 2), (0xFE04, 16), (0xFE05, 20),
      (0xFE06, 3)]
    let d := readSlot cfgDefault m 1
    (runs [(160, S0)]).length = 160 ∧ 12 < 160 ∧ spritesRun cfgDefault spriteRegs ∧
      d ∈ selectSprites cfgDefault spriteRegs m 0 ∧ d.flags.getLsbD 7 = false ∧
      spriteColourAt cfgDefault spriteRegs m 0 d 12 = some S2 ∧
      ∀ e ∈ selectSprites cfgDefault spriteRegs m 0, e ≠ d →
        (spriteColourAt cfgDefault spriteRegs m 0 e 12).isSome = true → d.x < e.x ∨ (d.x = e.x ∧ e.slot < d.slot) := by
  decide +kernel

/-- V100 at column 3 (the pixel shows background index 0's colour) and at column 4 (it does not). -/
theorem witness_PrioritySpriteShowsOverBackgroundZeroOnly :
    let m := memOf [(0x8020, 0xFF), (0xFE00, 16), (0xFE01, 8), (0xFE02, 2), (0xFE03, 0x80)]
    let d := readSlot cfgDefault m 0
    let row := runs [(4, S0), (4, S2), (152, S0)]
    row.length = 160 ∧ spritesRun cfgDefault spriteRegs ∧ d ∈ selectSprites cfgDefault spriteRegs m 0 ∧
      d.flags.getLsbD 7 = true ∧ spriteColourAt cfgDefault spriteRegs m 0 d 3 = some S1 ∧
      spriteColourAt cfgDefault spriteRegs m 0 d 4 = some S1 ∧
      (∀ e ∈ selectSprites cfgDefault spriteRegs m 0, e ≠ d → spriteColourAt cfgDefault spriteRegs m 0 e 3 = none ∧
        spriteColourAt cfgDefault spriteRegs m 0 e 4 = none) ∧
      rowCell row 3 = some S0 ∧ rowCell row 4 = some S2 ∧ quadGet cfgDefault.shadeRgb spriteRegs.bgPalette.e0 = S0 := by
  decide +kernel

/-- Stored x 1 and 167, the smallest and the largest that draw: one column each, at the two edges. -/
theorem witness_SpriteColumnsAreClipped :
    let m := memOf [(0x8020, 0xFF), (0xFE00, 16), (0xFE01, 1), (0xFE02, 2), (0xFE04, 16), (0xFE05, 167), (0xFE06, 2)]
    rowCell (drawSprite cfgDefault spriteRegs m 0 (runs [(160, S0)]) (readSlot cfgDefault m 0)) 0 = some S1 ∧
      rowCell (drawSprite cfgDefault spriteRegs m 0 (runs [(160, S0)]) (readSlot cfgDefault m 1)) 159 = some S1 ∧
      rowCell (runs [(160, S0)]) 0 ≠ some S1 ∧ rowCell (runs [(160, S0)]) 159 ≠ some S1 ∧
      cfgDefault.spriteXOffset = 8 ∧ readSlot cfgDefault m 1 = readSlot cfgDefault m (readSlot cfgDefault m 1).slot := by
  decide +kernel

theorem witness_DisplayEnableAndWindowXHaveNoEffect :
    SameButUnreadRegs State.reset (bench { regsZero with lcdEnabled := true, windowX := 7 }) := by decide

/-- A memory that differs from the empty one at an address of no table, 0xFEA0, the first past the attribute table. -/
theorem witness_OnlyTheTablesAreRead :
    State.reset.cfg.oamEntryBytes = 4 ∧ memRead [(0xFEA0, 1)] 0xFEA0 ≠ memRead State.reset.mem 0xFEA0 ∧
      (∀ a : Int, tableAddress State.reset.cfg a → memRead [(0xFEA0, 1)] a = memRead State.reset.mem a) ∧
      ∃ t, exec (.tick 114 false) State.reset = .next t := by
  refine ⟨rfl, by decide, fun a ha => ?_, ⟨_, rfl⟩⟩
  have hne : a.toNat ≠ 0xFEA0 := by
    simp only [tableAddress, State.reset, State.resetOf, cfgDefault] at ha
    omega
  exact memRead_memWrite_ne (m := []) 1 hne

/-- The invariant with something to keep: a listed byte, a listed row, the last line. -/
theorem witness_EveryStepKeepsTheInvariant :
    ∃ s t : State, s.Inv ∧ s.mem ≠ [] ∧ s.fb ≠ [] ∧ step s = .next t :=
  ⟨{ stateP3 with fb := [(143, runs [(160, S1)])], pending := [.operation (.bus 0x1FF4203)] }, _, by decide +kernel,
    by decide +kernel, by decide +kernel, rfl⟩

theorem witness_TicksSettleModeAndEdgeFields :
    (bench { regsZero with currentLine := 144, prevLine := 144, lcdMode := .vblank, prevMode := .vblank }).Settled ∧
      ∃ t, step (waiting [.memory 0 1]) = .next t := ⟨by decide, _, rfl⟩

/-- A framebuffer that lists a row, which the run's second tick renders again. -/
theorem witness_RunLeavesTheRowsItsTicksRender :
    ({ stateP4 with fb := [(0, runs [(160, S1)])] }).fb.wf ∧
      renderedLines [17555, 17556] { stateP4 with fb := [(0, runs [(160, S1)])] } = [0] := by decide +kernel

/-- Each clause at the ends of its range: line 0, line 1 and line 143. -/
theorem witness_FirstTickAfterReset :
    113 % 17556 / 114 = 0 ∧ (0 < 114 % 17556 / 114 ∧ 114 % 17556 / 114 < 144) ∧
      (0 < 16415 % 17556 / 114 ∧ 16415 % 17556 / 114 < 144) ∧ 0 < 1 := by decide

end Sys2Proof.Tests
end

section
/-!
Proofs about the state: which operation may change which part of it, the invariants that every step keeps (R25), and the
two registers that nothing reads (R13, R15).
-/

namespace Sys2Proof.Machine

/-! ## One step, an equation per case -/

theorem step_of_nil {s : State} (h : s.pending = []) : step s = .next s := by simp [step, h]

theorem step_of_memory {s : State} {addr : Nat} {data : Byte} {rest : List Input}
    (h : s.pending = .memory addr data :: rest) : step s = .next (envWrite addr data (dropInput s)) := by simp [step, h]

theorem step_of_decode_ok {s : State} {op : Operation} {rest : List Input} {i : Instr}
    (h : s.pending = .operation op :: rest) (hd : decode s.cfg.regAddr op = .ok i) : step s = exec i (dropInput s) := by
  simp [step, h, hd]

theorem step_of_decode_error {s : State} {op : Operation} {rest : List Input} {write : Bool} {addr : Addr}
    (h : s.pending = .operation op :: rest) (hd : decode s.cfg.regAddr op = .error (.notAnOperation write addr)) :
    step s = .refused (.notAnOperation write addr) := by
  simp [step, h, hd]

/-- A property kept by every operation, by the environment's memory move and by taking an input is kept by every step. -/
theorem step_preserves {P : State → Prop} (hexec : ∀ {i s t}, exec i s = .next t → P s → P t)
    (hmem : ∀ addr data s, P s → P (envWrite addr data s)) (hdrop : ∀ s, P s → P (dropInput s))
    {s t : State} (h : step s = .next t) (hs : P s) : P t := by
  obtain ⟨-, hstep⟩ | ⟨addr, data, -, -, hstep⟩ | ⟨-, -, i, -, -, hstep⟩ | ⟨-, -, write, addr, -, -, hstep⟩ := step_cases s
  all_goals rw [hstep] at h
  · cases h; exact hs
  · cases h; exact hmem _ _ _ (hdrop _ hs)
  · exact hexec h (hdrop _ hs)
  · cases h

/-! ## The display enable and `window_x` -/

/-- The state with the two registers that nothing reads set to the given values (R13, R15). -/
def withUnread (enable : Bool) (x : Byte) (s : State) : State :=
  withReg { s.reg with lcdEnabled := enable, windowX := x } s

theorem sameButUnreadRegs_iff {s t : State} : SameButUnreadRegs s t ↔ ∃ enable x, t = withUnread enable x s :=
  ⟨fun h => ⟨_, _, h⟩, by rintro ⟨enable, x, rfl⟩; rfl⟩

theorem sameButUnreadRegs_withUnread (enable : Bool) (x : Byte) (s : State) :
    SameButUnreadRegs s (withUnread enable x s) := rfl

section Unread

variable (enable : Bool) (x : Byte) (line : Nat)

theorem renderView_withUnread (s : State) : renderView (withUnread enable x s).reg = renderView s.reg := rfl

theorem renderLine_withUnread (s : State) :
    renderLine line (withUnread enable x s) = withUnread enable x (renderLine line s) := by
  have hrow : renderRow s.cfg (withUnread enable x s).reg s.mem line (fbRow s.fb line) =
      renderRow s.cfg s.reg s.mem line (fbRow s.fb line) := renderRow_eq_of_view (renderView_withUnread enable x s)
  exact congrArg (fun row => { withUnread enable x s with fb := fbSetRow s.fb line row }) hrow

theorem renderStep_withUnread (s : State) :
    renderStep line (withUnread enable x s) = withUnread enable x (renderStep line s) := by
  have hdue : renderDue (withUnread enable x s).reg line = renderDue s.reg line := rfl
  rw [renderStep, renderStep, hdue, renderLine_withUnread]
  split <;> rfl

/-- The two registers pass through a tick: neither its events nor its rendering reads them. -/
theorem tickAt_withUnread (mode : Mode) (s : State) :
    tickAt line mode (withUnread enable x s) = withUnread enable x (tickAt line mode s) := by
  have hlatch : withReg (latch line mode (withUnread enable x s).reg) (withUnread enable x s) =
      withUnread enable x (withReg (latch line mode s.reg) s) := rfl
  simp only [tickAt, hlatch, renderStep_withUnread]
  rfl

/-- An operation at other values of the two registers leaves a state that differs at most in them. -/
theorem exec_withUnread (i : Instr) (s : State) :
    outcomesRelated SameButUnreadRegs (exec i s) (exec i (withUnread enable x s)) := by
  cases i with
  | tick cycles closeReq =>
    cases closeReq with
    | false =>
      rw [exec_tick_false, exec_tick_false, tickAt_withUnread]
      exact sameButUnreadRegs_withUnread ..
    | true => exact sameButUnreadRegs_withUnread enable x (record (.tick .stop []) s)
  | _ => rfl

end Unread

/-- One step of the relation: both states take the same case of the step. -/
theorem step_sameButUnreadRegs {s t : State} (h : SameButUnreadRegs s t) :
    outcomesRelated SameButUnreadRegs (step s) (step t) := by
  obtain ⟨enable, x, rfl⟩ := sameButUnreadRegs_iff.mp h
  obtain ⟨hp, hstep⟩ | ⟨addr, data, rest, hp, hstep⟩ | ⟨op, rest, i, hp, hd, hstep⟩ |
    ⟨op, rest, write, addr, hp, hd, hstep⟩ := step_cases s
  · rw [hstep, step_of_nil (s := withUnread enable x s) hp]
    exact h
  · rw [hstep, step_of_memory (s := withUnread enable x s) hp]
    exact sameButUnreadRegs_withUnread enable x (envWrite addr data (dropInput s))
  · rw [hstep, step_of_decode_ok (s := withUnread enable x s) hp hd]
    exact exec_withUnread enable x i (dropInput s)
  · rw [hstep, step_of_decode_error (s := withUnread enable x s) hp hd]
    rfl

/-- Related outcomes both go on in related states, or both refuse for the same reason: there is no fault (R190). -/
theorem outcomesRelated_cases {rel : State → State → Prop} {a b : Host.Outcome State Fault Refusal}
    (h : outcomesRelated rel a b) :
    (∃ s t, a = .next s ∧ b = .next t ∧ rel s t) ∨ ∃ r, a = .refused r ∧ b = .refused r := by
  cases a with
  | next s =>
    cases b with
    | next t => exact .inl ⟨s, t, rfl, rfl, h⟩
    | fault r => exact nomatch r
    | refused r => exact h.elim
  | fault r => exact nomatch r
  | refused r =>
    cases b with
    | next t => exact h.elim
    | fault r => exact nomatch r
    | refused r' => exact .inr ⟨r, rfl, congrArg Host.Outcome.refused (Eq.symm h)⟩

/-- A relation that one step keeps is kept by runs of any length. -/
theorem runSteps_related {rel : State → State → Prop}
    (hstep : ∀ {s t}, rel s t → outcomesRelated rel (step s) (step t)) (k : Nat) {s t : State} (h : rel s t) :
    outcomesRelated rel (runSteps k s) (runSteps k t) := by
  induction k generalizing s t with
  | zero => exact h
  | succ k ih =>
    obtain ⟨s', t', hs, ht, hrel⟩ | ⟨r, hs, ht⟩ := outcomesRelated_cases (hstep h)
    · rw [runSteps_succ_of_next hs, runSteps_succ_of_next ht]
      exact ih hrel
    · rw [runSteps, runSteps, hs, ht]
      rfl

/-- Settles O41: the two registers pass through every step, by induction on the number of steps. -/
theorem displayEnableAndWindowXHaveNoEffect : Obligations.DisplayEnableAndWindowXHaveNoEffect :=
  fun k _ _ h => runSteps_related step_sameButUnreadRegs k h

/-! ## The register invariant and the settled condition -/

theorem ofNat_lineOf_le (cycles : Nat) : BitVec.ofNat 8 (lineOf cycles) ≤ 153 := by
  rw [BitVec.le_def, toNat_ofNat_lineOf]
  exact Nat.le_of_lt_succ (lineOf_lt cycles)

/-- Every operation keeps the ranges of the registers: a tick latches a line up to 153 (R112), a write of a sprite palette
stores 0 in entry 0 (R65), and nothing else writes these fields. -/
theorem exec_reg_wf {i : Instr} {s t : State} (h : exec i s = .next t) (hs : s.reg.wf) : t.reg.wf := by
  obtain ⟨hcurrent, hprev, hobj1, hobj2⟩ := hs
  cases i with
  | tick cycles closeReq =>
    cases closeReq with
    | false =>
      cases h
      rw [tickAt_reg]
      exact ⟨ofNat_lineOf_le cycles, ofNat_lineOf_le cycles, hobj1, hobj2⟩
    | true => cases h; exact ⟨hcurrent, hprev, hobj1, hobj2⟩
  | wrObp0 data => cases h; exact ⟨hcurrent, hprev, rfl, hobj2⟩
  | wrObp1 data => cases h; exact ⟨hcurrent, hprev, hobj1, rfl⟩
  | _ => cases h; exact ⟨hcurrent, hprev, hobj1, hobj2⟩

/-- Every operation keeps the framebuffer's canonical form. -/
theorem exec_fb_wf {i : Instr} {s t : State} (h : exec i s = .next t) (hs : s.fb.wf) : t.fb.wf := by
  by_cases hi : ∃ cycles, i = .tick cycles false
  · obtain ⟨cycles, rfl⟩ := hi
    cases h
    exact tickAt_fb_wf _ hs
  · rw [exec_fb h (not_exists.mp hi)]
    exact hs

/-- Every operation keeps the invariant. -/
theorem exec_inv {i : Instr} {s t : State} (h : exec i s = .next t) (hs : s.Inv) : t.Inv := by
  obtain ⟨hreg, hfb, hmem⟩ := hs
  obtain ⟨-, hmem_eq, -⟩ := exec_keeps h
  exact ⟨exec_reg_wf h hreg, exec_fb_wf h hfb, hmem_eq ▸ hmem⟩

/-- Settles O45: each kind of step keeps the invariant; a memory move keeps the memory's canonical form. -/
theorem everyStepKeepsTheInvariant : Obligations.EveryStepKeepsTheInvariant :=
  fun _ _ hs h => step_preserves exec_inv
    (fun addr data _ ⟨hreg, hfb, hmem⟩ => ⟨hreg, hfb, memWrite_wf addr data hmem⟩) (fun _ hs => hs) h hs

/-- A tick that is not stopped settles mode and edge fields from any state (R112, R113, R119). -/
theorem tickAt_settled (cycles : Nat) (s : State) : (tickAt (lineOf cycles) (modeOf cycles) s).Settled := by
  simp [State.Settled, modeOf_eq_vblank]

/-- Every operation keeps the settled condition: only a tick that is not stopped writes a timing field. -/
theorem exec_settled {i : Instr} {s t : State} (h : exec i s = .next t) (hs : s.Settled) : t.Settled := by
  cases i with
  | tick cycles closeReq =>
    cases closeReq with
    | false => cases h; exact tickAt_settled cycles s
    | true => cases h; exact hs
  | _ => cases h; exact hs

/-- Settles O46: an unstopped tick settles the fields, and each kind of step keeps them settled. -/
theorem ticksSettleModeAndEdgeFields : Obligations.TicksSettleModeAndEdgeFields :=
  ⟨fun cycles s => ⟨_, exec_tick_false cycles s, tickAt_settled cycles s⟩,
    fun _ _ hs h => step_preserves exec_settled (fun _ _ _ hs => hs) (fun _ hs => hs) h hs⟩

/-- Settles O44: reset stands at line 0 in H-blank, latched and kept, with zero palettes and nothing listed. -/
theorem invariantHoldsAtReset : Obligations.InvariantHoldsAtReset :=
  ⟨⟨by decide, reset_fb_wf cfgDefault, reset_mem_wf cfgDefault⟩, by decide⟩

/-! ## Which operation changes which part of the state -/

/-- Settles O18: for each operation one clause is about its own fields, and the others are the frame of its update. -/
theorem fieldsChangeOnlyByTheirOwnOperation : Obligations.FieldsChangeOnlyByTheirOwnOperation := by
  intro i s t h
  cases i with
  | tick cycles closeReq =>
    cases closeReq with
    | false => rw [exec_tick_false] at h; cases h; simp
    | true => rw [exec_tick_true] at h; cases h; simp
  | _ => cases h; simp

/-- A step that changes what a framebuffer row holds is a tick that is not stopped (R47, R232). -/
theorem step_is_tick_of_fbRow_ne {s t : State} {row : Nat} (h : step s = .next t) (hne : fbRow t.fb row ≠ fbRow s.fb row) :
    ∃ cycles rest, s.pending = .operation (.tick cycles false) :: rest ∧
      t = tickAt (lineOf cycles) (modeOf cycles) (dropInput s) := by
  obtain ⟨-, hstep⟩ | ⟨addr, data, -, -, hstep⟩ | ⟨op, rest, i, hp, hd, hstep⟩ | ⟨-, -, write, addr, -, -, hstep⟩ :=
    step_cases s
  all_goals rw [hstep] at h
  · cases h; exact absurd rfl hne
  · cases h; exact absurd rfl hne
  · by_cases hi : ∃ cycles, i = .tick cycles false
    · obtain ⟨cycles, rfl⟩ := hi
      cases h
      exact ⟨cycles, rest, eq_tick_of_decode hd ▸ hp, rfl⟩
    · exact absurd (by rw [exec_fb h (not_exists.mp hi), dropInput_fb]) hne
  · cases h

/-- A tick changes what a framebuffer row holds only if the row is its own line and the line is due (R116). -/
theorem renderDue_of_tickAt_fbRow_ne {line row : Nat} {mode : Mode} {s : State}
    (hne : fbRow (tickAt line mode s).fb row ≠ fbRow s.fb row) : row = line ∧ renderDue s.reg line = true := by
  rw [tickAt_fb] at hne
  split at hne
  · rename_i hdue
    exact ⟨by_contra fun hrow => hne (fbRow_fbSetRow_ne _ hrow), hdue⟩
  · exact absurd rfl hne

/-- Settles O27: the step is a tick, the row is its line, and the line is due. -/
theorem onlyTheTicksOwnRowChanges : Obligations.OnlyTheTicksOwnRowChanges := by
  intro s t row h hne
  obtain ⟨cycles, rest, hp, rfl⟩ := step_is_tick_of_fbRow_ne h hne
  obtain ⟨rfl, hdue⟩ := renderDue_of_tickAt_fbRow_ne (s := dropInput s) hne
  obtain ⟨hchanged, hvisible⟩ := (renderDue_iff _ _).mp hdue
  exact ⟨hvisible, by simp, hchanged.symm, cycles, rest, hp, rfl⟩

end Sys2Proof.Machine
end

section
/-!
Proofs about memory: the addresses that a rendering pass reads lie in the tables of R43, so that memories which agree on the
tables render the same and every operation does the same at both (R55); what a step leaves of configuration and memory (R19,
R41); the step of a decoded operation (R50) and register operations done twice (R46).
-/

namespace Sys2Proof.Machine

/-! ## The addresses that rendering computes lie in the tables -/

/-- A tilemap cell's address lies in one of the two tilemaps (R43, R155). -/
theorem tableAddress_cellAddr {c : Cfg} {p : LayerPoint} (hbase : ∃ select, p.mapBase = mapBase c select)
    (htx : p.tx < 256) (hty : p.ty < 256) : tableAddress c (cellAddr p) := by
  obtain ⟨select, hbase⟩ := hbase
  have hcell : cellAddr p = mapBase c select + ((p.ty / 8 * 32 + p.tx / 8 : Nat) : Int) := by
    rw [cellAddr, mapWidthTiles, hbase]
    omega
  have hoffset : p.ty / 8 * 32 + p.tx / 8 < 1024 := by omega
  rw [hcell]
  cases select with
  | false => exact .inl (by simp only [mapBase, Bool.false_eq_true, if_false]; omega)
  | true => exact .inr (.inl (by simp only [mapBase, if_true]; omega))

/-- A pixel of a visible line has its place in one of the two tilemaps, at layer coordinates below 256 (R74, R153, R154). -/
theorem layerPoint_bounds {c : Cfg} {r : Regs} {line x : Nat} {p : LayerPoint} (hline : line < 144) (hx : x < 160)
    (hp : layerPoint c r line x = some p) : (∃ select, p.mapBase = mapBase c select) ∧ p.tx < 256 ∧ p.ty < 256 := by
  unfold layerPoint at hp
  split_ifs at hp
  · cases hp
    exact ⟨⟨_, rfl⟩, show x < 256 by omega, show line - _ < 256 by omega⟩
  · cases hp
    exact ⟨⟨_, rfl⟩, Nat.mod_lt _ (by decide), Nat.mod_lt _ (by decide)⟩

/-- The 16 bytes of a background or window tile lie in its tile table, whichever way the index counts (R43, R71). -/
theorem tableAddress_tileAddr (c : Cfg) (unsigned : Bool) (idx : Byte) {k : Int} (h0 : 0 ≤ k) (hk : k < 16) :
    tableAddress c (tileAddr c unsigned idx + k) := by
  cases unsigned with
  | true =>
    have hidx : idx.toNat < 256 := idx.isLt
    exact .inr (.inr (.inl (by simp only [tileAddr, tileBytes, if_true]; omega)))
  | false =>
    have hlow : -128 ≤ idx.toInt := BitVec.le_toInt idx
    have hhigh : idx.toInt < 128 := BitVec.toInt_lt
    refine .inr (.inr (.inr (.inl ?_)))
    simp only [tileAddr, tileBytes, Bool.false_eq_true, if_false]
    omega

/-- The four bytes of each of the 40 attribute slots lie in the attribute table, for slots of 4 bytes (R43, R67, D8). -/
theorem tableAddress_slotAddr {c : Cfg} (h4 : c.oamEntryBytes = 4) {i k : Nat} (hi : i < 40) (hk : k < 4) :
    tableAddress c (slotAddr c i k) := by
  have haddr : slotAddr c i k = c.oamBase + ((4 * i + k : Nat) : Int) := by
    rw [slotAddr, h4]
    omega
  rw [haddr]
  exact .inr (.inr (.inr (.inr (.inr (by omega)))))

/-- On a sprite's own lines its local row lies among its 8 or 16 rows, flipped or not (R141, R172). -/
theorem spriteRow_bounds {r : Regs} {line : Nat} {d : Descriptor} (h : onLine r line d = true) :
    0 ≤ spriteRow r d line ∧ spriteRow r d line < spriteHeight r := by
  simp only [onLine, Bool.and_eq_true, decide_eq_true_iff] at h
  obtain ⟨hfirst, hlast⟩ := h
  unfold spriteRow
  split <;> omega

theorem spriteHeight_le (r : Regs) : spriteHeight r ≤ 16 := by
  unfold spriteHeight
  split <;> decide

/-- The two bytes of a sprite's tile row lie in the sprite tile table; a tall sprite of index 255 reaches its last 16 bytes
(R43, R173). -/
theorem tableAddress_spriteRowAddr (c : Cfg) {r : Regs} {line : Nat} {d : Descriptor} (h : onLine r line d = true) {k : Int}
    (h0 : 0 ≤ k) (hk : k < 2) : tableAddress c (spriteRowAddr c r d line + k) := by
  obtain ⟨hlow, hhigh⟩ := spriteRow_bounds h
  have hheight := spriteHeight_le r
  have hidx : d.tileIndex.toNat < 256 := d.tileIndex.isLt
  refine .inr (.inr (.inr (.inr (.inl ?_))))
  simp only [spriteRowAddr, tileBytes]
  omega

/-! ## Memories that agree on the tables render the same -/

/-- Two memories answer every read of a table's address with the same byte (R43). -/
def AgreeOnTables (c : Cfg) (m m' : Memory) : Prop := ∀ a : Int, tableAddress c a → memRead m a = memRead m' a

theorem fetchIndex_congr {m m' : Memory} {a : Int} (h0 : memRead m a = memRead m' a)
    (h1 : memRead m (a + 1) = memRead m' (a + 1)) (b : Nat) : fetchIndex m a b = fetchIndex m' a b := by
  rw [fetchIndex, fetchIndex, h0, h1]

/-- Ordering by x loses and adds no descriptor (R144). -/
theorem orderSprites_perm (l : List Descriptor) : (orderSprites l).Perm l := by
  induction l with
  | nil => exact .refl _
  | cons d rest ih => exact (insertByX_perm d (orderSprites rest)).trans (ih.cons d)

section Agree

variable {c : Cfg} {m m' : Memory} (h : AgreeOnTables c m m') (r : Regs) {line : Nat}
include h

theorem layerIndex_agree {p : LayerPoint} (hp : tableAddress c (cellAddr p)) : layerIndex c r m p = layerIndex c r m' p := by
  rw [layerIndex, layerIndex, h _ hp]
  refine fetchIndex_congr (h _ (tableAddress_tileAddr c _ _ ?_ ?_)) (h _ ?_) _
  · omega
  · omega
  · rw [add_assoc]
    exact tableAddress_tileAddr c _ _ (by omega) (by omega)

theorem backgroundFrom_agree (hline : line < 144) {xs : List Nat} (hxs : ∀ x ∈ xs, x < 160) (row : Row) :
    backgroundFrom c r m line xs row = backgroundFrom c r m' line xs row := by
  induction xs generalizing row with
  | nil => rfl
  | cons x rest ih =>
    obtain ⟨hx, hrest⟩ := List.forall_mem_cons.mp hxs
    simp only [backgroundFrom, ih hrest]
    cases hp : layerPoint c r line x with
    | none => rfl
    | some p =>
      obtain ⟨hbase, htx, hty⟩ := layerPoint_bounds hline hx hp
      simp only [layerColour, layerIndex_agree h r (tableAddress_cellAddr hbase htx hty)]

theorem renderBackground_agree (hline : line < 144) (row : Row) :
    renderBackground c r m line row = renderBackground c r m' line row :=
  backgroundFrom_agree h r hline (fun _ hx => List.mem_range.mp hx) row

theorem readSlot_agree (h4 : c.oamEntryBytes = 4) {i : Nat} (hi : i < 40) : readSlot c m i = readSlot c m' i := by
  have hbyte {k : Nat} (hk : k < 4) := h _ (tableAddress_slotAddr h4 hi hk)
  simp only [readSlot, hbyte (k := 0) (by decide), hbyte (k := 1) (by decide), hbyte (k := 2) (by decide),
    hbyte (k := 3) (by decide)]

theorem selectFrom_agree (h4 : c.oamEntryBytes = 4) (room : Nat) {slots : List Nat} (hslots : ∀ i ∈ slots, i < 40) :
    selectFrom c r m line room slots = selectFrom c r m' line room slots := by
  induction slots generalizing room with
  | nil => cases room <;> rfl
  | cons i rest ih =>
    obtain ⟨hi, hrest⟩ := List.forall_mem_cons.mp hslots
    cases room with
    | zero => rfl
    | succ room => simp only [selectFrom, readSlot_agree h h4 hi, ih _ hrest]

theorem selectSprites_agree (h4 : c.oamEntryBytes = 4) : selectSprites c r m line = selectSprites c r m' line :=
  selectFrom_agree h r h4 _ fun _ hi => List.mem_range.mp hi

variable {r}

theorem drawSprite_agree {d : Descriptor} (hd : onLine r line d = true) (row : Row) :
    drawSprite c r m line row d = drawSprite c r m' line row d := by
  have hfetch (b : Nat) : fetchIndex m (spriteRowAddr c r d line) b = fetchIndex m' (spriteRowAddr c r d line) b := by
    refine fetchIndex_congr (h _ ?_) (h _ (tableAddress_spriteRowAddr c hd (by decide) (by decide))) b
    rw [← add_zero (spriteRowAddr c r d line)]
    exact tableAddress_spriteRowAddr c hd (by decide) (by decide)
  have hcolumn (row : Row) (col : Nat) : drawColumn c r m line d row col = drawColumn c r m' line d row col := by
    simp only [drawColumn, hfetch]
  rw [drawSprite, drawSprite, funext fun row => funext (hcolumn row)]

variable (r)

/-- The sprite pass draws only descriptors that lie on the line, and those read only the sprite tile table. -/
theorem renderSprites_agree (h4 : c.oamEntryBytes = 4) (row : Row) :
    renderSprites c r m line row = renderSprites c r m' line row := by
  rw [renderSprites, renderSprites, selectSprites_agree h r h4]
  congr 1
  refine List.foldl_ext _ _ _ fun row d hd => drawSprite_agree h ?_ row
  exact (mem_selectFrom c r m' line ((orderSprites_perm _).mem_iff.mp hd)).1

theorem renderRow_agree (h4 : c.oamEntryBytes = 4) (hline : line < 144) (row : Row) :
    renderRow c r m line row = renderRow c r m' line row := by
  rw [renderRow, renderRow, renderBackground_agree h r hline, renderSprites_agree h r h4]

end Agree

/-! ## An operation at a memory that agrees on the tables -/

section OtherMemory

variable {s : State} {m : Memory} (h4 : s.cfg.oamEntryBytes = 4) (h : AgreeOnTables s.cfg m s.mem)
include h4 h

/-- A line that is due is visible, so that its two passes read only the tables. -/
theorem renderStep_withMem (line : Nat) : renderStep line { s with mem := m } = { renderStep line s with mem := m } := by
  cases hdue : renderDue s.reg line with
  | false => simp only [renderStep, hdue, Bool.false_eq_true, if_false]
  | true =>
    have hline : line < 144 := ((renderDue_iff _ _).mp hdue).2
    simp only [renderStep, hdue, if_true, renderLine, renderRow_agree h _ h4 hline]

/-- Latching and bookkeeping do not look at the memory; the render step is the only reader. -/
theorem tickAt_withMem (line : Nat) (mode : Mode) :
    tickAt line mode { s with mem := m } = { tickAt line mode s with mem := m } := by
  have hrender := renderStep_withMem (s := withReg (latch line mode s.reg) s) h4 h line
  have hlatch : withReg (latch line mode s.reg) { s with mem := m } = { withReg (latch line mode s.reg) s with mem := m } := rfl
  simp only [tickAt, hlatch, hrender]
  rfl

end OtherMemory

/-- Settles O43: only a tick that is not stopped reads memory, and it reads it only in the tables. -/
theorem onlyTheTablesAreRead : Obligations.OnlyTheTablesAreRead := by
  intro i s t m h4 h hexec
  cases i with
  | tick cycles closeReq =>
    cases closeReq with
    | false =>
      cases hexec
      rw [exec_tick_false, tickAt_withMem h4 h]
    | true => cases hexec; rfl
  | _ => cases hexec; rfl

/-! ## What a step leaves of configuration, memory and pending inputs -/

/-- Settles O5: no operation writes the three parts, and a memory move writes only the memory. -/
theorem blockNeverWritesMemoryOrConfiguration : Obligations.BlockNeverWritesMemoryOrConfiguration := by
  intro s t h
  obtain ⟨hp, hstep⟩ | ⟨addr, data, rest, hp, hstep⟩ | ⟨-, -, i, -, -, hstep⟩ | ⟨-, -, write, addr, -, -, hstep⟩ :=
    step_cases s
  all_goals rw [hstep] at h
  · cases h
    exact ⟨rfl, by rw [hp, List.tail_nil], fun _ => rfl⟩
  · cases h
    exact ⟨rfl, rfl, fun hhead => absurd (by rw [hp, List.head?_cons]) (hhead addr data)⟩
  · obtain ⟨hcfg, hmem, hpending⟩ := exec_keeps h
    exact ⟨hcfg, hpending, fun _ => hmem⟩
  · cases h

/-! ## The step of a decoded operation -/

/-- Taking the first input leaves the rest of the list. -/
theorem dropInput_of_cons {s : State} {inp : Input} {rest : List Input} (h : s.pending = inp :: rest) :
    dropInput s = { s with pending := rest } := by
  rw [dropInput, h, List.tail_cons]

/-- Settles O1: the step's equation at an operation that decodes. -/
theorem stepRunsTheDecodedOperation : Obligations.StepRunsTheDecodedOperation :=
  fun _ _ _ _ hp hd => by rw [step_of_decode_ok hp hd, dropInput_of_cons hp]

/-! ## Register operations done twice -/

/-- Settles O17: a read leaves the registers that its byte is composed from; a write sets its own fields to values that depend
on its data byte alone, so that the second write sets them to what they are. -/
theorem registerOperationsAreIdempotent : Obligations.RegisterOperationsAreIdempotent := by
  intro i s t hi h
  cases i with
  | tick cycles closeReq => exact absurd rfl (hi cycles closeReq)
  | rdStat | rdLy | rdLyc =>
    cases h
    exact ⟨_, rfl, rfl, rfl, rfl, rfl, fun _ => ⟨_, rfl, rfl⟩, by simp⟩
  | _ =>
    cases h
    exact ⟨_, rfl, rfl, rfl, rfl, rfl, by simp, fun _ => ⟨rfl, rfl⟩⟩

end Sys2Proof.Machine
end

section
/-!
Proofs about the encoding (R61, R75, R80): what the decoder does with a bus word, said once as a case split, the encoder's round
trips in both directions, and what a step does with a presented word. Then the register operations that store or answer a byte
as it stands (R64 to R66, R70).
-/

namespace Sys2Proof

open Machine

/-! ## Bus words put together and masked -/

@[simp] theorem decode_busWord_write (ra : RegAddr) (addr : Addr) (data : Byte) :
    decode ra (.bus (busWord true addr data)) = decodeWrite ra addr data := by
  simp [decode, decodeBus]

@[simp] theorem decode_busWord_read (ra : RegAddr) (addr : Addr) (data : Byte) :
    decode ra (.bus (busWord false addr data)) = decodeRead ra addr := by
  simp [decode, decodeBus]

/-- Masking a bus word masks each of its fields. -/
theorem busWord_and (write write' : Bool) (addr addr' : Addr) (data data' : Byte) :
    busWord write addr data &&& busWord write' addr' data' =
      busWord (write && write') (addr &&& addr') (data &&& data') := by
  change (BitVec.ofBool write ++ addr ++ data) &&& (BitVec.ofBool write' ++ addr' ++ data') = _
  rw [BitVec.and_append, BitVec.and_append, BitVec.ofBool_and_ofBool]
  rfl

/-- The mask of R61's ignored bits leaves direction and address, and clears the data. -/
theorem and_dataMask (w : BusWord) : w &&& 0x1FFFF00 = busWord (busWrite w) (busAddr w) 0 := by
  have hmask : (0x1FFFF00 : BusWord) = busWord true (BitVec.allOnes 16) 0 := by decide
  calc w &&& 0x1FFFF00
      = busWord (busWrite w) (busAddr w) (busData w) &&& busWord true (BitVec.allOnes 16) 0 := by
        rw [busWord_fields, hmask]
    _ = busWord (busWrite w) (busAddr w) 0 := by
        rw [busWord_and, Bool.and_true, BitVec.and_allOnes]
        exact congrArg (busWord _ _) BitVec.and_zero

/-! ## Everything the decoder can do with a bus word -/

/-- A write is one of R61's ten, and then the word of the operation it decodes to, or it is rejected (R75). In the
last case no address matches. -/
theorem decodeWrite_cases (ra : RegAddr) (addr : Addr) (data : Byte) :
    (addr ∈ [ra.lcdc, ra.stat, ra.scy, ra.scx, ra.lyc, ra.bgp, ra.obp0, ra.obp1, ra.wy, ra.wx] ∧
      ∃ i, decodeWrite ra addr data = .ok i ∧ encode ra i = .bus (busWord true addr data)) ∨
    (addr ∉ [ra.lcdc, ra.stat, ra.scy, ra.scx, ra.lyc, ra.bgp, ra.obp0, ra.obp1, ra.wy, ra.wx] ∧
      decodeWrite ra addr data = .error (.notAnOperation true addr)) := by
  fun_cases decodeWrite ra addr data with
  | case11 => exact .inr ⟨by simp [*], rfl⟩
  | _ => subst addr; exact .inl ⟨by simp, _, rfl, rfl⟩

/-- A read is one of R61's three, and then the word of the operation it decodes to, or it is rejected (R75). In the
last case no address matches. -/
theorem decodeRead_cases (ra : RegAddr) (addr : Addr) :
    (addr ∈ [ra.stat, ra.ly, ra.lyc] ∧
      ∃ i, decodeRead ra addr = .ok i ∧ encode ra i = .bus (busWord false addr 0)) ∨
    (addr ∉ [ra.stat, ra.ly, ra.lyc] ∧ decodeRead ra addr = .error (.notAnOperation false addr)) := by
  fun_cases decodeRead ra addr with
  | case4 => exact .inr ⟨by simp [*], rfl⟩
  | _ => subst addr; exact .inl ⟨by simp, _, rfl, rfl⟩

/-- A bus word is served, and then the word of the operation it decodes to up to a read's data bits, or it is rejected under
its direction and address. -/
theorem decode_bus_cases (ra : RegAddr) (w : BusWord) :
    (Served ra w ∧ ∃ i, decode ra (.bus w) = .ok i ∧
      encode ra i = .bus (if w.getLsbD 24 then w else w &&& 0x1FFFF00)) ∨
    (¬ Served ra w ∧ decode ra (.bus w) = .error (.notAnOperation (w.getLsbD 24) (busAddr w))) := by
  by_cases hw : w.getLsbD 24 = true
  · have hfields : busWord true (busAddr w) (busData w) = w := by
      rw [← hw]; exact busWord_fields w
    rw [Served, decode_bus_of_write hw, if_pos hw, if_pos hw, hw]
    simpa only [hfields] using decodeWrite_cases ra (busAddr w) (busData w)
  · have hmasked : busWord false (busAddr w) 0 = w &&& 0x1FFFF00 := by
      rw [and_dataMask, busWrite, eq_false_of_ne_true hw]
    rw [Served, decode_bus_of_read hw, if_neg hw, if_neg hw, eq_false_of_ne_true hw]
    simpa only [hmasked] using decodeRead_cases ra (busAddr w)

/-! ## The encoder's round trips -/

/-- Settles O6: the test for an operation's own address is the first that succeeds, since the addresses differ. -/
theorem decodeOfEncodeGivesTheOperationBack : Obligations.DecodeOfEncodeGivesTheOperationBack := by
  intro ra i hra _
  have hlater : ra.toList.reverse.Nodup := List.nodup_reverse.mpr hra
  -- no address equals one that is tested before it
  simp only [RegAddr.toList, List.reverse_cons, List.reverse_nil, List.nil_append, List.cons_append, List.nodup_cons,
    List.mem_cons, not_or] at hlater
  cases i with
  | tick cycles closeReq => rfl
  | rdStat | rdLy | rdLyc => simp [encode, decodeRead, hlater]
  | _ => simp [encode, decodeWrite, hlater]

/-- Settles O7: the served case of the decoder's case split; the other decodes to nothing. -/
theorem decodedWordIsTheOperationsWord : Obligations.DecodedWordIsTheOperationsWord := by
  intro ra w i h
  obtain ⟨-, j, hdecode, hencode⟩ | ⟨-, hdecode⟩ := decode_bus_cases ra w
  · obtain rfl : j = i := Except.ok.inj (hdecode.symm.trans h)
    exact hencode
  · cases hdecode.symm.trans h

/-! ## What a step does with a presented word -/

/-- Settles O4: a served word decodes and every operation answers a next state; the other is rejected by the decoder. -/
theorem exactlyUnservedAccessesAreRefused : Obligations.ExactlyUnservedAccessesAreRefused := by
  intro s w rest hp
  obtain ⟨hserved, i, hdecode, -⟩ | ⟨hunserved, hdecode⟩ := decode_bus_cases s.cfg.regAddr w
  · refine ⟨fun hunserved => absurd hserved hunserved, fun _ => ⟨i, hdecode, ?_⟩⟩
    rw [step_of_decode_ok hp hdecode]
    exact exec_answers_next i (dropInput s)
  · exact ⟨fun _ => step_of_decode_error hp hdecode, fun hserved => absurd hserved hunserved⟩

/-- What is read from a table word is what the decoder reads from the operation it presents. -/
theorem decodeTableWord_eq_some {nbits w : Nat} {i : Instr} :
    decodeTableWord nbits w = some i ↔ decode regAddrDefault (tableOperation nbits w) = .ok i := by
  unfold decodeTableWord
  cases decode regAddrDefault (tableOperation nbits w) <;> simp

/-- Settles O2: the presented word is the first input, and taking it gives back the state before. -/
theorem presentedTableWordRunsNext : Obligations.PresentedTableWordRunsNext := by
  intro s nbits w i hra h
  rw [decodeTableWord_eq_some, ← hra] at h
  exact step_of_decode_ok (s := s.withFetchWord nbits w) rfl h

/-- Settles O8: each word is evaluated; the write to the line register falls through every test. -/
theorem specWordsDecodeAsWritten : Obligations.SpecWordsDecodeAsWritten := by
  unfold Obligations.SpecWordsDecodeAsWritten
  decide

/-! ## Registers that hold a byte as it stands -/

/-- Settles O12: each write is the update of its own field; the read after a write finds the field it wrote. -/
theorem byteRegistersStoreTheByteUnchanged : Obligations.ByteRegistersStoreTheByteUnchanged := by
  refine fun data s => ⟨rfl, rfl, rfl, rfl, rfl, rfl, fun t h => ?_⟩
  cases h
  rfl

/-- Settles O15: the bound is the line field's own in the register invariant. -/
theorem readLineAnswersTheLatchedLine : Obligations.ReadLineAnswersTheLatchedLine := by
  refine fun s => ⟨rfl, fun hs => ?_⟩
  obtain ⟨⟨hcurrent, -⟩, -⟩ := hs
  exact hcurrent

/-! ## Palettes -/

/-- Palette entry i is digit i of the byte in base 4 (R70). -/
theorem toNat_paletteEntry (data : Byte) (i : Nat) : (paletteEntry data i).toNat = data.toNat / 4 ^ i % 4 := by
  rw [paletteEntry, BitVec.extractLsb'_toNat, Nat.shiftRight_eq_div_pow, Nat.pow_mul]

/-- The last entry is the whole quotient, for a byte is below 4 ^ 4. -/
theorem toNat_paletteEntry_three (data : Byte) : (paletteEntry data 3).toNat = data.toNat / 64 := by
  rw [toNat_paletteEntry]
  omega

/-- Settles O13: each write stores the table of the byte's digits in base 4, a sprite palette's with entry 0 cleared. -/
theorem paletteWritesUnpackLowToHigh : Obligations.PaletteWritesUnpackLowToHigh := by
  intro data s
  have h0 : (paletteEntry data 0).toNat = data.toNat % 4 := by simp [toNat_paletteEntry]
  have h1 := toNat_paletteEntry data 1
  have h2 := toNat_paletteEntry data 2
  have h3 := toNat_paletteEntry_three data
  exact ⟨⟨bgPaletteOf data, rfl, h0, h1, h2, h3⟩, ⟨objPaletteOf data, rfl, rfl, h1, h2, h3⟩,
    ⟨objPaletteOf data, rfl, rfl, h1, h2, h3⟩⟩

end Sys2Proof
end

section
/-!
Proofs about the control and status registers (R62, R63, R90, R91, R101): the two bytes bit by bit, the control byte as the
inverse of its eight flags; and what a register operation leaves alone (R100).
-/

namespace Sys2Proof.Machine

/-! ## The control byte and its eight flags -/

theorem exec_wrLcdc (data : Byte) (s : State) : exec (.wrLcdc data) s = .next (withReg (setControl data s.reg) s) := rfl

/-- The eight bits of the control byte, one flag each (R62). -/
theorem controlByte_bits (r : Regs) :
    (controlByte r).getLsbD 0 = r.bgEnabled ∧ (controlByte r).getLsbD 1 = r.spritesEnabled ∧
      (controlByte r).getLsbD 2 = r.spriteSize ∧ (controlByte r).getLsbD 3 = r.tilemapSelect ∧
      (controlByte r).getLsbD 4 = r.bgTiledataSelect ∧ (controlByte r).getLsbD 5 = r.windowEnabled ∧
      (controlByte r).getLsbD 6 = r.windowTilemapSelect ∧ (controlByte r).getLsbD 7 = r.lcdEnabled := by
  simp only [controlByte, BitVec.getLsbD_append, BitVec.getLsbD_ofBool]
  simp

/-- The byte is recoverable from the flags that it sets (R15). -/
theorem controlByte_setControl (data : Byte) (r : Regs) : controlByte (setControl data r) = data := by
  obtain ⟨h0, h1, h2, h3, h4, h5, h6, h7⟩ := controlByte_bits (setControl data r)
  refine BitVec.eq_of_getLsbD_eq fun i hi => ?_
  interval_cases i <;> assumption

/-- Settles O10: `controlByte` is the inverse; it recovers the byte from the state left, and it is the byte that leaves a
given choice of flags. -/
theorem controlByteRoundTrips : Obligations.ControlByteRoundTrips := by
  refine ⟨fun d e s ⟨t, hd, he⟩ => ?_, fun r s => ?_⟩
  · have hleft {data : Byte} (h : exec (.wrLcdc data) s = .next t) : controlByte t.reg = data := by
      cases h
      exact controlByte_setControl data s.reg
    exact (hleft hd).symm.trans (hleft he)
  · exact ⟨controlByte r, _, exec_wrLcdc .., controlByte_bits r⟩

/-- Settles O9: the statement is the record update that `setControl` is. -/
theorem writeControlSetsTheEightFlags : Obligations.WriteControlSetsTheEightFlags := exec_wrLcdc

/-! ## The status byte -/

theorem exec_wrStat (data : Byte) (s : State) : exec (.wrStat data) s = .next (withReg (setStatus data s.reg) s) := rfl

theorem exec_rdStat (s : State) : exec .rdStat s = .next (record (.read (statusByte s.reg)) s) := rfl

/-- Settles O11: the statement is the record update that `setStatus` is. -/
theorem writeStatusSetsTheFourEnables : Obligations.WriteStatusSetsTheFourEnables := exec_wrStat

theorem coincidence_iff (r : Regs) : coincidence r = true ↔ r.currentLine = r.lineCompare := beq_iff_eq

/-- Bits 7 to 2 of the status byte, one flag each (R63). -/
theorem statusByte_bits (r : Regs) :
    (statusByte r).getLsbD 7 = true ∧ (statusByte r).getLsbD 6 = r.lyInt ∧ (statusByte r).getLsbD 5 = r.oamInt ∧
      (statusByte r).getLsbD 4 = r.vblankInt ∧ (statusByte r).getLsbD 3 = r.hblankInt ∧
      (statusByte r).getLsbD 2 = coincidence r := by
  simp only [statusByte, BitVec.getLsbD_append, BitVec.getLsbD_ofBool]
  simp

/-- The two low bits of the status byte are the mode's number (R63). -/
theorem toNat_statusByte_mod_four (r : Regs) : (statusByte r).toNat % 4 = (modeCode r.lcdMode).toNat := by
  have hlow : (statusByte r).setWidth 2 = modeCode r.lcdMode := BitVec.setWidth_append_eq_right
  rw [← hlow, BitVec.toNat_setWidth]

/-- Settles O14: the byte put out is `statusByte`, bit by bit. -/
theorem readStatusComposesTheByte : Obligations.ReadStatusComposesTheByte := by
  intro s
  obtain ⟨h7, h6, h5, h4, h3, h2⟩ := statusByte_bits s.reg
  refine ⟨statusByte s.reg, exec_rdStat s, h7, h6, h5, h4, h3, by rw [h2, coincidence_iff], ?_⟩
  rw [toNat_statusByte_mod_four]
  cases s.reg.lcdMode <;> rfl

/-! ## What a register operation leaves alone -/

/-- Settles O16: a write is an update of fields that are no timing fields, by values that do not depend on the mode; a read
only puts out a byte, which for the line and the compare value is the same in every mode. -/
theorem registerOperationsHaveNoSideEffect : Obligations.RegisterOperationsHaveNoSideEffect := by
  intro i s hi
  cases i with
  | tick cycles closeReq => exact absurd rfl (hi cycles closeReq)
  | rdStat => exact ⟨_, rfl, rfl, rfl, rfl, rfl, rfl, ⟨by simp, fun _ => ⟨rfl, _, rfl⟩⟩, by simp⟩
  | rdLy | rdLyc => exact ⟨_, rfl, rfl, rfl, rfl, rfl, rfl, ⟨by simp, fun _ => ⟨rfl, _, rfl⟩⟩, fun _ _ => rfl⟩
  | _ => exact ⟨_, rfl, rfl, rfl, rfl, rfl, rfl, ⟨fun _ => rfl, by simp⟩, fun _ _ => rfl⟩

end Sys2Proof.Machine
end

section
/-!
Proofs about one tick (R110): its line and mode (R112 to R114), its events (R115, R117), what it renders (R116), a second tick
at the same counter value (R121) and the stopped tick (R120).
-/

namespace Sys2Proof.Machine

/-- Settles O19: the stopped tick only records its signal. -/
theorem stoppedTickChangesNothing : Obligations.StoppedTickChangesNothing := exec_tick_true

/-! ## Line and mode -/

theorem lineOf_eq (cycles : Nat) : lineOf cycles = cycles % 17556 / 114 := rfl

theorem linePosition_eq (cycles : Nat) : linePosition cycles = cycles % 17556 % 114 := rfl

/-- The line of a counter value taken apart into frame, line and position (R112). -/
theorem lineOf_frame_line_position {l p : Nat} (f : Nat) (hl : l < 154) (hp : p < 114) :
    lineOf (17556 * f + 114 * l + p) = l := by
  rw [lineOf_eq]
  omega

/-- The position of a counter value taken apart into frame, line and position (R112). -/
theorem linePosition_frame_line_position {p : Nat} (f l : Nat) (hp : p < 114) :
    linePosition (17556 * f + 114 * l + p) = p := by
  rw [linePosition_eq]
  omega

/-- A tick changes nothing but the four timing fields, the framebuffer and the history of outputs. -/
theorem tickAt_frame (line : Nat) (mode : Mode) (s : State) :
    tickAt line mode s = { s with
      reg := bookkeep line mode (latch line mode s.reg), fb := (tickAt line mode s).fb
      outputs := (tickAt line mode s).outputs } := by
  unfold tickAt renderStep
  dsimp only
  split <;> rfl

/-- The line field after a tick, as a number (R112). -/
theorem toNat_currentLine_tickAt (cycles : Nat) (mode : Mode) (s : State) :
    (tickAt (lineOf cycles) mode s).reg.currentLine.toNat = lineOf cycles := by
  rw [tickAt_reg, bookkeep_currentLine, latch_currentLine, toNat_ofNat_lineOf]

/-- The line kept for the next tick, as a number (R119). -/
theorem toNat_prevLine_tickAt (cycles : Nat) (mode : Mode) (s : State) :
    (tickAt (lineOf cycles) mode s).reg.prevLine.toNat = lineOf cycles := by
  rw [tickAt_reg, bookkeep_prevLine, toNat_ofNat_lineOf]

/-- The mode field after a tick (R113). -/
theorem lcdMode_tickAt (line : Nat) (mode : Mode) (s : State) : (tickAt line mode s).reg.lcdMode = mode := by
  rw [tickAt_reg, bookkeep_lcdMode, latch_lcdMode]

/-- The mode kept for the next tick (R119). -/
theorem prevMode_tickAt (line : Nat) (mode : Mode) (s : State) : (tickAt line mode s).reg.prevMode = mode := by
  rw [tickAt_reg, bookkeep_prevMode]

/-- Settles O20: the registers and the frame of `tickAt`; the ranges are those of remainders. -/
theorem tickLatchesLineAndMode : Obligations.TickLatchesLineAndMode := by
  intro cycles s
  refine ⟨_, _, exec_tick_false cycles s, tickAt_outputs .., toNat_currentLine_tickAt ..,
    Nat.le_of_lt_succ (framePosition_lt cycles), Nat.le_of_lt_succ (lineOf_lt cycles),
    Nat.le_of_lt_succ (linePosition_lt cycles), ?_, ?_⟩
  · rw [lcdMode_tickAt]
    rfl
  · rw [tickAt_reg]
    exact tickAt_frame ..

/-- Settles O21: each mode's characterisation, at the line and position that make up the counter value. -/
theorem modeMapByLineAndPosition : Obligations.ModeMapByLineAndPosition := by
  intro f l p s hl hp
  have hline := lineOf_frame_line_position f hl hp
  have hposition := linePosition_frame_line_position f l hp
  refine ⟨_, exec_tick_false _ s, (toNat_currentLine_tickAt ..).trans hline, ?_, ?_, ?_, ?_⟩
  all_goals rw [lcdMode_tickAt]
  · rw [modeOf_eq_oamSearch]; omega
  · rw [modeOf_eq_pixelTransfer]; omega
  · rw [modeOf_eq_hblank]; omega
  · rw [modeOf_eq_vblank, hline]

/-! ## Events -/

/-- One of R115's four conditions holds at a tick of this line and mode, at the registers before it. -/
abbrev StatDue (r : Regs) (line : Nat) (mode : Mode) : Prop :=
  (r.lyInt = true ∧ line = r.lineCompare.toNat) ∨ (r.hblankInt = true ∧ mode = .hblank ∧ r.prevMode ≠ .hblank) ∨
    (r.vblankInt = true ∧ mode = .vblank ∧ r.prevMode ≠ .vblank) ∨
    (r.oamInt = true ∧ mode = .oamSearch ∧ r.prevMode ≠ .oamSearch)

/-- The interrupt evaluation requests LCD-STAT once if one of its conditions holds, and never twice (R115). -/
theorem statEvents_eq (r : Regs) (line : Nat) (mode : Mode) :
    statEvents r line mode = if StatDue r line mode then [.request .lcdStat] else [] := by
  have hnone : statSource r line mode = none ↔ ¬StatDue r line mode := by simp only [statSource_eq_none, not_or]
  cases hsource : statSource r line mode with
  | none => rw [statEvents_of_none _ _ _ hsource, if_neg (hnone.mp hsource)]
  | some source =>
    have hdue : StatDue r line mode := by_contra fun h => by simp [hnone.mpr h] at hsource
    rw [statEvents_of_some _ _ _ hsource, if_pos hdue]

/-- Settles O22: the two parts of `tickEvents`, each at its own condition. -/
theorem tickEmitsExactlyItsEvents : Obligations.TickEmitsExactlyItsEvents := by
  intro cycles s
  refine ⟨_, statEvents s.reg (lineOf cycles) (modeOf cycles), frameEvents s.reg (lineOf cycles), exec_tick_false cycles s,
    tickAt_outputs .., ?_, ?_, fun h => if_pos h, fun h => if_neg h⟩
  all_goals rw [lcdMode_tickAt, statEvents_eq]
  · exact fun h => if_pos h
  · exact fun h => if_neg h

/-! ## Two ticks at one counter value -/

/-- A tick whose line is not due records its events and writes the timing fields, and nothing else. -/
theorem tickAt_of_not_due {line : Nat} {s : State} (mode : Mode) (h : ¬renderDue s.reg line = true) :
    tickAt line mode s = record (.tick .cont (tickEvents s.reg line mode))
      (withReg (bookkeep line mode (latch line mode s.reg)) s) := by
  rw [tickAt_frame, tickAt_fb, if_neg h, tickAt_outputs]
  rfl

/-- A tick that stays in the mode kept from before enters none: only the coincidence is left (R115). -/
theorem statDue_prevMode (r : Regs) (line : Nat) :
    StatDue r line r.prevMode ↔ r.lyInt = true ∧ line = r.lineCompare.toNat := by
  have hentry (mode : Mode) : ¬(r.prevMode = mode ∧ r.prevMode ≠ mode) := fun h => h.2 h.1
  simp only [StatDue, hentry, and_false, or_false]

/-- After a tick its own line and mode are those kept for edge detection: the line is not due, no mode is entered and no
frame boundary is crossed (R121). -/
theorem tickAt_tickAt (cycles : Nat) (s : State) :
    tickAt (lineOf cycles) (modeOf cycles) (tickAt (lineOf cycles) (modeOf cycles) s) =
      record (.tick .cont (if s.reg.lyInt = true ∧ lineOf cycles = s.reg.lineCompare.toNat then [.request .lcdStat] else []))
        (tickAt (lineOf cycles) (modeOf cycles) s) := by
  set t := tickAt (lineOf cycles) (modeOf cycles) s
  have hreg : t.reg = bookkeep (lineOf cycles) (modeOf cycles) (latch (lineOf cycles) (modeOf cycles) s.reg) := tickAt_reg ..
  have hline : t.reg.prevLine.toNat = lineOf cycles := toNat_prevLine_tickAt ..
  have hdue : ¬renderDue t.reg (lineOf cycles) = true := fun h => ((renderDue_iff _ _).mp h).1 hline.symm
  have hframe : frameEvents t.reg (lineOf cycles) = [] := if_neg (by omega)
  have hstat : StatDue t.reg (lineOf cycles) (modeOf cycles) ↔
      s.reg.lyInt = true ∧ lineOf cycles = s.reg.lineCompare.toNat := by
    rw [← prevMode_tickAt (lineOf cycles) (modeOf cycles) s, statDue_prevMode, hreg]
    rfl
  have hkeep : bookkeep (lineOf cycles) (modeOf cycles) (latch (lineOf cycles) (modeOf cycles) t.reg) = t.reg := by
    rw [hreg]
    rfl
  rw [tickAt_of_not_due _ hdue, hkeep, tickEvents, statEvents_eq, hframe, List.append_nil]
  simp only [hstat]
  rfl

/-- Settles O24: the first tick leaves the line and mode that the second finds kept. -/
theorem secondTickAtOneCounterValue : Obligations.SecondTickAtOneCounterValue := by
  intro cycles s t h
  cases h
  exact congrArg Host.Outcome.next (tickAt_tickAt cycles s)

/-! ## What a tick renders -/

/-- Every row after a tick: the passes over it if it is the tick's own line and due, else as before (R116). -/
theorem fbRow_tickAt {s : State} (h : s.fb.wf) (line : Nat) (mode : Mode) (row : Nat) :
    fbRow (tickAt line mode s).fb row =
      if renderDue s.reg line = true ∧ line = row then renderRow s.cfg s.reg s.mem line (fbRow s.fb row)
      else fbRow s.fb row := by
  rw [tickAt_fb]
  by_cases hdue : renderDue s.reg line = true
  · by_cases hrow : line = row
    · subst hrow
      rw [if_pos hdue, if_pos ⟨hdue, rfl⟩, fbRow_fbSetRow_self h (by rw [renderRow_length, fbRow_length h])]
    · rw [if_pos hdue, if_neg fun h => hrow h.2, fbRow_fbSetRow_ne _ (Ne.symm hrow)]
  · rw [if_neg hdue, if_neg fun h => hdue h.1]

/-- Settles O25: the tick's own row and every other, and the framebuffer of a tick whose line is not due. -/
theorem tickRendersTheChangedVisibleLine : Obligations.TickRendersTheChangedVisibleLine := by
  intro cycles s hs
  refine ⟨_, exec_tick_false cycles s, tickAt_fb_wf _ hs, fun h => ⟨?_, fun row hrow => ?_⟩, fun h => ?_⟩
  · exact (fbRow_tickAt hs ..).trans (if_pos ⟨(renderDue_iff _ _).mpr h, rfl⟩)
  · exact (fbRow_tickAt hs ..).trans (if_neg fun h => hrow h.2.symm)
  · exact (tickAt_fb ..).trans (if_neg fun hdue => h ((renderDue_iff _ _).mp hdue))

/-- `present()` is put out only at the step from line 143 to line 144 (R117). -/
theorem boundary_of_present_mem {r : Regs} {line : Nat} {mode : Mode} (h : .present ∈ tickEvents r line mode) :
    r.prevLine.toNat = 143 ∧ line = 144 := by
  have hframe : .present ∈ frameEvents r line := by
    refine (List.mem_append.mp h).resolve_left ?_
    rw [statEvents_eq]
    split <;> simp
  by_contra hno
  simp [frameEvents, hno] at hframe

/-- Settles O26: the tick that presents is on line 144, which is not visible. -/
theorem presentedFrameIsLeftByEarlierTicks : Obligations.PresentedFrameIsLeftByEarlierTicks := by
  intro cycles s t events h hout hpresent
  cases h
  obtain rfl : tickEvents s.reg (lineOf cycles) (modeOf cycles) = events := by
    rw [tickAt_outputs] at hout
    simpa using hout
  have hboundary := boundary_of_present_mem hpresent
  refine ⟨?_, List.mem_append_right _ ?_, ?_⟩
  · rw [tickAt_fb, if_neg]
    rw [renderDue_iff]
    omega
  · rw [frameEvents, if_pos hboundary]
    simp
  · exact (toNat_currentLine_tickAt ..).trans hboundary.2

end Sys2Proof.Machine
end

section
/-!
Proofs about runs of ticks (R116, R122, R230): what a run leaves in every row; what it puts out and on which lines it meets
R116's condition, first for every counter sequence whose advance from tick to tick is bounded, then for one frame at stride 1.
-/

namespace Sys2Proof

open Machine

/-! ## What a run leaves in every row -/

/-- What a tick that renders `line` makes of the pixels of row `row`, under the state's registers and memory (R116). -/
def renderOver (s : State) (row : Nat) (pixels : Row) (line : Nat) : Row :=
  if line = row then renderRow s.cfg s.reg s.mem line pixels else pixels

/-- A tick changes nothing that rendering reads. -/
theorem renderOver_tickAt (line : Nat) (mode : Mode) (s : State) : renderOver (tickAt line mode s) = renderOver s := by
  have hview : renderView (tickAt line mode s).reg = renderView s.reg := by
    rw [tickAt_reg, renderView_bookkeep, renderView_latch]
  funext row pixels line'
  rw [renderOver, renderOver, tickAt_cfg, tickAt_mem, renderRow_eq_of_view hview]

/-- A row after a run is the rendered lines' passes over what it held, in order; by induction on the ticks. -/
theorem fbRow_execTicks (cs : List Nat) {s t : State} (hs : s.fb.wf) (ht : execTicks cs s = .next t) :
    t.fb.wf ∧ ∀ row, fbRow t.fb row = (renderedLines cs s).foldl (renderOver s row) (fbRow s.fb row) := by
  induction cs generalizing s with
  | nil => cases ht; exact ⟨hs, fun _ => rfl⟩
  | cons c rest ih =>
    rw [execTicks_cons] at ht
    obtain ⟨hwf, hrows⟩ := ih (tickAt_fb_wf (lineOf c) hs) ht
    refine ⟨hwf, fun row => ?_⟩
    rw [hrows, renderOver_tickAt, renderedLines_cons, List.foldl_append, fbRow_tickAt hs]
    split_ifs with hboth hdue hdue
    · rw [List.foldl_cons, List.foldl_nil, renderOver, if_pos hboth.2]
    · exact absurd hboth.1 hdue
    · rw [List.foldl_cons, List.foldl_nil, renderOver, if_neg fun hrow => hboth ⟨hdue, hrow⟩]
    · rfl

/-- Settles O49: the statement writes `renderOver` out. -/
theorem runLeavesTheRowsItsTicksRender : Obligations.RunLeavesTheRowsItsTicksRender := by
  intro cs s hs
  obtain ⟨t, ht⟩ := execTicks_answers_next cs s
  exact ⟨t, ht, fbRow_execTicks cs hs ht⟩

/-! ## What is counted between two ticks of bounded distance

The model's counts (`visibleLinesBegun` and its neighbours) grow from one tick to the next by what that next tick sees, as long
as the counter advances by no more than the shortest stretch that it could otherwise jump over (R230). -/

/-- Within one line's length, a visible line begins exactly when the line changes to a visible one (R230 a). -/
theorem visibleLinesBegun_advance {c d : Nat} (hle : d ≤ c) (hstride : c ≤ d + 114) :
    visibleLinesBegun c = visibleLinesBegun d + if lineOf c ≠ lineOf d ∧ lineOf c < 144 then 1 else 0 := by
  have hc := lineOf_eq c
  have hd := lineOf_eq d
  unfold visibleLinesBegun
  split_ifs <;> omega

/-- On a visible line, that line is the latest that has begun. -/
theorem visibleLinesBegun_mod {c : Nat} (h : lineOf c < 144) : visibleLinesBegun c % 144 = lineOf c := by
  rw [lineOf_eq] at h
  rw [visibleLinesBegun, lineOf_eq]
  omega

/-- Within one line's length, a step from line 143 to line 144 is seen by the tick after it (R230 a, R117). -/
theorem boundariesPassed_advance {c d : Nat} (hle : d ≤ c) (hstride : c ≤ d + 114) :
    boundariesPassed c = boundariesPassed d + if lineOf d = 143 ∧ lineOf c = 144 then 1 else 0 := by
  have hc := lineOf_eq c
  have hd := lineOf_eq d
  unfold boundariesPassed
  split_ifs <;> omega

/-- Within V-blank's length of 1140, no V-blank is jumped over (R230 d). -/
theorem boundariesPassed_advance_mode {c d : Nat} (hle : d ≤ c) (hstride : c ≤ d + 1140) :
    boundariesPassed c = boundariesPassed d + if modeOf c = .vblank ∧ modeOf d ≠ .vblank then 1 else 0 := by
  simp only [ne_eq, modeOf_eq_vblank, boundariesPassed, lineOf_eq]
  split_ifs <;> omega

/-- Within H-blank's length of 51, no H-blank is jumped over (R230 b). -/
theorem hblanksBegun_advance {c d : Nat} (hle : d ≤ c) (hstride : c ≤ d + 51) :
    hblanksBegun c = hblanksBegun d + if modeOf c = .hblank ∧ modeOf d ≠ .hblank then 1 else 0 := by
  simp only [ne_eq, modeOf_eq_hblank, hblanksBegun, lineOf_eq, linePosition_eq]
  split_ifs <;> omega

/-- Within OAM search's length of 20, no OAM search is jumped over (R230 c). -/
theorem oamSearchesBegun_advance {c d : Nat} (hle : d ≤ c) (hstride : c ≤ d + 20) :
    oamSearchesBegun c = oamSearchesBegun d + if modeOf c = .oamSearch ∧ modeOf d ≠ .oamSearch then 1 else 0 := by
  simp only [ne_eq, modeOf_eq_oamSearch, oamSearchesBegun, lineOf_eq, linePosition_eq]
  split_ifs <;> omega

/-- How many counter values at or before `c` lie on line `v` of their frame; none for a line that no frame has. -/
def unitsOnLine (v c : Nat) : Nat := if v < 154 then 114 * (c / 17556) + min 114 (c % 17556 + 1 - 114 * v) else 0

/-- At stride 1 every unit of a line is counted when it is reached. -/
theorem unitsOnLine_succ (v c : Nat) : unitsOnLine v (c + 1) = unitsOnLine v c + if lineOf (c + 1) = v then 1 else 0 := by
  have hline := lineOf_lt (c + 1)
  rw [lineOf_eq] at hline ⊢
  unfold unitsOnLine
  split_ifs <;> omega

/-! ## What one tick adds to the counts -/

theorem count_present_tickEvents (r : Regs) (line : Nat) (mode : Mode) :
    (tickEvents r line mode).count .present = if r.prevLine.toNat = 143 ∧ line = 144 then 1 else 0 := by
  rw [tickEvents, List.count_append, count_statEvents_of_ne _ _ _ (by decide), count_present_frameEvents, Nat.zero_add]

theorem count_vblank_tickEvents (r : Regs) (line : Nat) (mode : Mode) :
    (tickEvents r line mode).count (.request .vblank) = if r.prevLine.toNat = 143 ∧ line = 144 then 1 else 0 := by
  rw [tickEvents, List.count_append, count_statEvents_of_ne _ _ _ (by decide), count_vblank_frameEvents, Nat.zero_add]

theorem count_lcdStat_tickEvents (r : Regs) (line : Nat) (mode : Mode) :
    (tickEvents r line mode).count (.request .lcdStat) = if StatDue r line mode then 1 else 0 := by
  rw [tickEvents, List.count_append, count_lcdStat_frameEvents, statEvents_eq]
  split <;> rfl

/-- Of the four enables, only that of entering mode `m` is set; pixel transfer has none (R14 a). -/
abbrev OnlyModeEnabled (m : Mode) (r : Regs) : Prop :=
  r.lyInt = false ∧ r.hblankInt = decide (m = .hblank) ∧ r.vblankInt = decide (m = .vblank) ∧
    r.oamInt = decide (m = .oamSearch)

/-- Of the four enables, only the coincidence's is set. -/
abbrev OnlyCoincidenceEnabled (r : Regs) : Prop :=
  r.lyInt = true ∧ r.hblankInt = false ∧ r.vblankInt = false ∧ r.oamInt = false

theorem statDue_of_onlyModeEnabled {m : Mode} {r : Regs} (h : OnlyModeEnabled m r) (hm : m ≠ .pixelTransfer) (line : Nat)
    (mode : Mode) : StatDue r line mode ↔ mode = m ∧ r.prevMode ≠ m := by
  obtain ⟨hly, hhblank, hvblank, hoam⟩ := h
  cases m with
  | pixelTransfer => exact absurd rfl hm
  | _ => simp [StatDue, hly, hhblank, hvblank, hoam]

theorem statDue_of_onlyCoincidenceEnabled {r : Regs} (h : OnlyCoincidenceEnabled r) (line : Nat) (mode : Mode) :
    StatDue r line mode ↔ line = r.lineCompare.toNat := by
  obtain ⟨hly, hhblank, hvblank, hoam⟩ := h
  simp [StatDue, hly, hhblank, hvblank, hoam]

/-! ## Runs of bounded advance -/

/-- The stride bound relates each tick's counter value to the one before (R230). -/
theorem strided_iff_isChain {stride d : Nat} {cs : List Nat} :
    strided stride d cs = true ↔ List.IsChain (fun d c => d ≤ c ∧ c ≤ d + stride) (d :: cs) := by
  induction cs generalizing d with
  | nil => simp [strided]
  | cons c rest ih => rw [strided_cons, ih, List.isChain_cons_cons, and_assoc]

/-- Stride 1 is within every bound. -/
theorem strided_range' {stride : Nat} (h : 1 ≤ stride) (d n : Nat) : strided stride d (List.range' (d + 1) n) = true :=
  strided_iff_isChain.mpr ((List.isChain_range' d (n + 1) 1).imp fun _ _ _ => by omega)

theorem getLastD_range' (d n : Nat) : (List.range' (d + 1) n).getLastD d = d + n := by
  induction n generalizing d with
  | zero => rfl
  | succ n ih => rw [List.range'_succ, List.getLastD_cons, ih, Nat.add_assoc, Nat.add_comm 1]

section Strided

variable {stride d : Nat} {cs : List Nat} {s t : State}

/-- If each tick adds to an event's count what a function of the counter grows by, then so does a run. `R` relates each tick's
counter value to the one before, and `I` is what the count depends on: it holds of the registers after a tick at the counter
value before. By induction on the ticks. -/
theorem eventCount_execTicks_isChain {e : Event} {F : Nat → Nat} {R : Nat → Nat → Prop} {I : Nat → Regs → Prop}
    (hkeep : ∀ d c s, I d s.reg → I c (tickAt (lineOf c) (modeOf c) s).reg)
    (hcount : ∀ d c r, I d r → R d c → F c = F d + (tickEvents r (lineOf c) (modeOf c)).count e)
    (hcs : List.IsChain R (d :: cs)) (hs : I d s.reg) (ht : execTicks cs s = .next t) :
    F d ≤ F (cs.getLastD d) ∧ eventCount e t.outputs = eventCount e s.outputs + (F (cs.getLastD d) - F d) := by
  induction cs generalizing d s with
  | nil => cases ht; exact ⟨le_refl _, by simp⟩
  | cons c rest ih =>
    obtain ⟨hc, hrest⟩ := List.isChain_cons_cons.mp hcs
    rw [execTicks_cons] at ht
    have hfirst := hcount d c s.reg hs hc
    obtain ⟨hmono, hlater⟩ := ih hrest (hkeep d c s hs) ht
    rw [eventCount_tickAt] at hlater
    rw [List.getLastD_cons]
    omega

/-- The lines of R116's condition are the visible lines that begin meanwhile, in order (R230 a). -/
theorem renderedLines_strided (hcs : strided 114 d cs = true) (hs : s.reg.prevLine.toNat = lineOf d) :
    visibleLinesBegun d ≤ visibleLinesBegun (cs.getLastD d) ∧
      renderedLines cs s =
        (List.range' (visibleLinesBegun d + 1) (visibleLinesBegun (cs.getLastD d) - visibleLinesBegun d)).map (· % 144) := by
  induction cs generalizing d s with
  | nil => simp [renderedLines]
  | cons c rest ih =>
    obtain ⟨hle, hstride, hrest⟩ := strided_cons.mp hcs
    have hfirst := visibleLinesBegun_advance hle hstride
    obtain ⟨hmono, hlater⟩ := ih hrest (toNat_prevLine_tickAt c (modeOf c) s)
    have hdue := renderDue_iff s.reg (lineOf c)
    rw [hs] at hdue
    rw [renderedLines_cons, hlater, List.getLastD_cons]
    by_cases h : lineOf c ≠ lineOf d ∧ lineOf c < 144
    · rw [if_pos h] at hfirst
      rw [if_pos (hdue.mpr h), ← visibleLinesBegun_mod h.2, hfirst,
        show visibleLinesBegun (rest.getLastD c) - visibleLinesBegun d =
          visibleLinesBegun (rest.getLastD c) - (visibleLinesBegun d + 1) + 1 by omega, List.range'_succ]
      exact ⟨by omega, rfl⟩
    · rw [if_neg h, Nat.add_zero] at hfirst
      rw [if_neg fun hdue' => h (hdue.mp hdue'), ← hfirst]
      exact ⟨hmono, rfl⟩

/-- An event that every tick puts out exactly at the step from line 143 to line 144 is put out once for each such step that
the run passes (R230 a). -/
theorem eventCount_boundary_strided {e : Event}
    (he : ∀ r line mode, (tickEvents r line mode).count e = if r.prevLine.toNat = 143 ∧ line = 144 then 1 else 0)
    (hcs : strided 114 d cs = true) (hs : s.reg.prevLine.toNat = lineOf d) (ht : execTicks cs s = .next t) :
    eventCount e t.outputs = eventCount e s.outputs + (boundariesPassed (cs.getLastD d) - boundariesPassed d) := by
  refine (eventCount_execTicks_isChain (I := fun d r => r.prevLine.toNat = lineOf d)
    (fun _ c s _ => toNat_prevLine_tickAt c _ s) (fun d c r hr hc => ?_) (strided_iff_isChain.mp hcs) hs ht).2
  rw [he, hr, boundariesPassed_advance hc.1 hc.2]

/-- With one mode enable alone, LCD-STAT is requested once for each entry of that mode that the run passes, if no advance of
the counter jumps over one (R230). -/
theorem eventCount_modeEntry_strided {m : Mode} {F : Nat → Nat} (hm : m ≠ .pixelTransfer)
    (hF : ∀ d c, d ≤ c → c ≤ d + stride → F c = F d + if modeOf c = m ∧ modeOf d ≠ m then 1 else 0)
    (hcs : strided stride d cs = true) (hs : s.reg.prevMode = modeOf d) (henabled : OnlyModeEnabled m s.reg)
    (ht : execTicks cs s = .next t) :
    eventCount (.request .lcdStat) t.outputs = eventCount (.request .lcdStat) s.outputs + (F (cs.getLastD d) - F d) := by
  refine (eventCount_execTicks_isChain (I := fun d r => r.prevMode = modeOf d ∧ OnlyModeEnabled m r)
    (fun _ c s hr => ⟨prevMode_tickAt _ _ s, by rw [tickAt_reg]; exact hr.2⟩) (fun d c r hr hc => ?_)
    (strided_iff_isChain.mp hcs) ⟨hs, henabled⟩ ht).2
  obtain ⟨hprev, henabled⟩ := hr
  simp only [count_lcdStat_tickEvents, statDue_of_onlyModeEnabled henabled hm, hprev, hF d c hc.1 hc.2]

/-- With the coincidence enable alone, LCD-STAT is requested at every counter value of the compare line that a run at stride 1
reaches. -/
theorem eventCount_coincidence_range' {n : Nat} (henabled : OnlyCoincidenceEnabled s.reg)
    (ht : execTicks (List.range' (d + 1) n) s = .next t) :
    eventCount (.request .lcdStat) t.outputs = eventCount (.request .lcdStat) s.outputs +
      (unitsOnLine s.reg.lineCompare.toNat (d + n) - unitsOnLine s.reg.lineCompare.toNat d) := by
  rw [← getLastD_range' d n]
  refine (eventCount_execTicks_isChain
    (I := fun _ r => OnlyCoincidenceEnabled r ∧ r.lineCompare.toNat = s.reg.lineCompare.toNat)
    (fun _ c s hr => by rw [tickAt_reg]; exact hr) (fun d c r hr hc => ?_)
    (List.isChain_range' d (n + 1) 1) ⟨henabled, rfl⟩ ht).2
  obtain ⟨henabled, hcompare⟩ := hr
  subst hc
  simp only [count_lcdStat_tickEvents, statDue_of_onlyCoincidenceEnabled henabled, hcompare, unitsOnLine_succ]

end Strided

/-! ## One frame at stride 1 -/

theorem visibleLinesBegun_add_frame (c : Nat) : visibleLinesBegun (c + 17556) = visibleLinesBegun c + 144 := by
  unfold visibleLinesBegun
  omega

theorem boundariesPassed_add_frame (c : Nat) : boundariesPassed (c + 17556) = boundariesPassed c + 1 := by
  unfold boundariesPassed
  omega

theorem hblanksBegun_add_frame (c : Nat) : hblanksBegun (c + 17556) = hblanksBegun c + 144 := by
  unfold hblanksBegun
  omega

theorem oamSearchesBegun_add_frame (c : Nat) : oamSearchesBegun (c + 17556) = oamSearchesBegun c + 144 := by
  unfold oamSearchesBegun
  omega

theorem unitsOnLine_add_frame (v c : Nat) :
    unitsOnLine v (c + 17556) = unitsOnLine v c + if v ≤ 153 then 114 else 0 := by
  unfold unitsOnLine
  split_ifs <;> omega

/-- A counter value one frame later is at the same frame position (R112). -/
theorem framePosition_add_frame (c : Nat) : framePosition (17556 + c) = framePosition c := Nat.add_mod_left ..

theorem lineOf_add_frame (c : Nat) : lineOf (17556 + c) = lineOf c := by
  rw [lineOf, framePosition_add_frame, lineOf]

theorem linePosition_add_frame (c : Nat) : linePosition (17556 + c) = linePosition c := by
  rw [linePosition, framePosition_add_frame, linePosition]

theorem modeOf_add_frame (c : Nat) : modeOf (17556 + c) = modeOf c := by
  rw [modeOf, lineOf_add_frame, linePosition_add_frame, modeOf]

/-- A run one frame later does the same: nothing counts frames (R112). -/
theorem execTicks_add_frame (cs : List Nat) (s : State) : execTicks (cs.map (17556 + ·)) s = execTicks cs s := by
  induction cs generalizing s with
  | nil => rfl
  | cons c rest ih => rw [List.map_cons, execTicks_cons, execTicks_cons, lineOf_add_frame, modeOf_add_frame, ih]

theorem renderedLines_add_frame (cs : List Nat) (s : State) :
    renderedLines (cs.map (17556 + ·)) s = renderedLines cs s := by
  induction cs generalizing s with
  | nil => rfl
  | cons c rest ih =>
    rw [List.map_cons, renderedLines_cons, renderedLines_cons, lineOf_add_frame, modeOf_add_frame, ih]

section Frame

variable {d : Nat} {s t : State}

/-- The frame boundary's two events come once in every frame at stride 1 (R117). -/
theorem eventCount_boundary_frame {e : Event}
    (he : ∀ r line mode, (tickEvents r line mode).count e = if r.prevLine.toNat = 143 ∧ line = 144 then 1 else 0)
    (hs : s.reg.prevLine.toNat = lineOf d) (ht : execTicks (List.range' (d + 1) 17556) s = .next t) :
    eventCount e t.outputs = eventCount e s.outputs + 1 := by
  rw [eventCount_boundary_strided he (strided_range' (by decide) d _) hs ht, getLastD_range', boundariesPassed_add_frame,
    Nat.add_sub_cancel_left]

/-- With one mode enable alone, a frame at stride 1 requests LCD-STAT as often as a frame enters that mode (R122). -/
theorem eventCount_modeEntry_frame {m : Mode} {stride k : Nat} {F : Nat → Nat} (hm : m ≠ .pixelTransfer)
    (hF : ∀ d c, d ≤ c → c ≤ d + stride → F c = F d + if modeOf c = m ∧ modeOf d ≠ m then 1 else 0)
    (hstride : 1 ≤ stride) (hframe : ∀ c, F (c + 17556) = F c + k) (hs : s.reg.prevMode = modeOf d)
    (henabled : OnlyModeEnabled m s.reg) (ht : execTicks (List.range' (d + 1) 17556) s = .next t) :
    eventCount (.request .lcdStat) t.outputs = eventCount (.request .lcdStat) s.outputs + k := by
  rw [eventCount_modeEntry_strided hm hF (strided_range' hstride d _) hs henabled ht, getLastD_range', hframe,
    Nat.add_sub_cancel_left]

/-- The 144 visible lines that begin in a frame, as line numbers. -/
theorem map_mod_range'_frame (f : Nat) : (List.range' (144 * f) 144).map (· % 144) = List.range 144 := by
  rw [List.range'_eq_map_range, List.map_map]
  refine (List.map_congr_left fun line hline => ?_).trans (List.map_id _)
  have := List.mem_range.mp hline
  show (144 * f + line) % 144 = line
  omega

/-- A frame at stride 1, begun after the last counter value of a frame, meets R116's condition on every visible line in
order. -/
theorem renderedLines_frame {f : Nat} (hd : d = 17556 * f + 17555) (hs : s.reg.prevLine.toNat = lineOf d) :
    renderedLines (List.range' (d + 1) 17556) s = List.range 144 := by
  have hbegun : visibleLinesBegun d + 1 = 144 * (f + 1) := by
    unfold visibleLinesBegun
    omega
  rw [(renderedLines_strided (strided_range' (by decide) d _) hs).2, getLastD_range', visibleLinesBegun_add_frame,
    Nat.add_sub_cancel_left, hbegun, map_mod_range'_frame]

end Frame

/-- Settles O31: the frame's ticks do the same one frame later, where a counter value stands before them also when `f` is 0;
from there on each count grows by what it counts in one frame. -/
theorem oneFrameAtStrideOne : Obligations.OneFrameAtStrideOne := by
  intro f s hline hmode
  obtain ⟨t, ht⟩ := execTicks_answers_next (List.range' (17556 * f) 17556) s
  obtain ⟨d, hd⟩ : ∃ d, d = 17556 * f + 17555 := ⟨_, rfl⟩
  have hstart : d + 1 = 17556 + 17556 * f := by omega
  have hlater : List.range' (d + 1) 17556 = (List.range' (17556 * f) 17556).map (17556 + ·) := by
    rw [hstart, List.map_add_range']
  have hrun : execTicks (List.range' (d + 1) 17556) s = .next t := by rw [hlater, execTicks_add_frame, ht]
  have hlineOf : lineOf d = 153 := by rw [lineOf_eq]; omega
  have hprevLine : s.reg.prevLine.toNat = lineOf d := by rw [hline, hlineOf]; rfl
  have hprevMode : s.reg.prevMode = modeOf d := by rw [hmode, eq_comm, modeOf_eq_vblank, hlineOf]; decide
  refine ⟨t, ht, ?_, eventCount_boundary_frame count_present_tickEvents hprevLine hrun,
    eventCount_boundary_frame count_vblank_tickEvents hprevLine hrun, fun hly hhblank hvblank hoam => ?_,
    fun hly hhblank hvblank hoam => ?_, fun hly hhblank hvblank hoam => ?_, fun hly hhblank hvblank hoam => ?_⟩
  · rw [← renderedLines_add_frame, ← hlater, renderedLines_frame hd hprevLine]
  · exact eventCount_modeEntry_frame (m := .oamSearch) (by decide) (fun _ _ => oamSearchesBegun_advance) (by decide)
      oamSearchesBegun_add_frame hprevMode ⟨hly, hhblank, hvblank, hoam⟩ hrun
  · exact eventCount_modeEntry_frame (m := .hblank) (by decide) (fun _ _ => hblanksBegun_advance) (by decide)
      hblanksBegun_add_frame hprevMode ⟨hly, hhblank, hvblank, hoam⟩ hrun
  · exact eventCount_modeEntry_frame (m := .vblank) (by decide) (fun _ _ => boundariesPassed_advance_mode) (by decide)
      boundariesPassed_add_frame hprevMode ⟨hly, hhblank, hvblank, hoam⟩ hrun
  · rw [eventCount_coincidence_range' ⟨hly, hhblank, hvblank, hoam⟩ hrun, unitsOnLine_add_frame, Nat.add_sub_cancel_left]

end Sys2Proof
end

section
/-!
Proofs about the sprite list: which slots the selector takes (R140 to R143), how the orderer arranges them (R144), and which of
the sprites that overlap at a pixel shows there (R145).
-/

namespace Sys2Proof.Machine

/-! ## Selection -/

/-- The scan takes the first matches in scanning order, as many as there is room for (R142). -/
theorem selectFrom_eq_take_filter (c : Cfg) (r : Regs) (m : Memory) (line room : Nat) (slots : List Nat) :
    selectFrom c r m line room slots = ((slots.map (readSlot c m)).filter (onLine r line)).take room := by
  induction slots generalizing room with
  | nil => cases room <;> rfl
  | cons i rest ih =>
    cases room with
    | zero => rfl
    | succ room =>
      rw [selectFrom, List.map_cons, List.filter_cons]
      split
      · rw [List.take_succ_cons, ih]
      · exact ih _

theorem selectSprites_eq_take_filter (c : Cfg) (r : Regs) (m : Memory) (line : Nat) :
    selectSprites c r m line = (((List.range 40).map (readSlot c m)).filter (onLine r line)).take 10 :=
  selectFrom_eq_take_filter ..

/-- The selector keeps the table's order, so slots strictly ascend in its list (R142). -/
theorem selectSprites_pairwise_slot (c : Cfg) (r : Regs) (m : Memory) (line : Nat) :
    (selectSprites c r m line).Pairwise fun p q => p.slot < q.slot := by
  have htable : ((List.range 40).map (readSlot c m)).Pairwise fun p q => p.slot < q.slot :=
    List.pairwise_map.mpr List.pairwise_lt_range
  rw [selectSprites_eq_take_filter]
  exact htable.sublist ((List.take_sublist ..).trans List.filter_sublist)

/-- Settles O34: the scan is a filter cut off at ten. -/
theorem firstTenMatchingSlotsInOrder : Obligations.FirstTenMatchingSlotsInOrder := by
  intro c r m line
  refine ⟨selectSprites_eq_take_filter c r m line, ?_, selectSprites_pairwise_slot c r m line⟩
  rw [selectSprites_eq_take_filter]
  exact List.length_take_le ..

/-- The selection test on a slot of the table, in terms of the stored y (R141, R72). -/
theorem onLine_readSlot (c : Cfg) (r : Regs) (m : Memory) (line i : Nat) :
    onLine r line (readSlot c m i) =
      (decide (line + 16 < (memRead m (c.oamBase + c.oamEntryBytes * i : Nat)).toNat + (if r.spriteSize then 16 else 8)) &&
        decide ((memRead m (c.oamBase + c.oamEntryBytes * i : Nat)).toNat ≤ line + 16)) := by
  have hy : (readSlot c m i).y = ((memRead m (c.oamBase + c.oamEntryBytes * i : Nat)).toNat : Int) - 16 := rfl
  have hheight : spriteHeight r = ((if r.spriteSize then 16 else 8 : Nat) : Int) := by
    unfold spriteHeight
    split <;> rfl
  rw [onLine, hy, hheight, Bool.and_comm]
  congr 1 <;> rw [decide_eq_decide] <;> omega

/-- Settles O35: filtering the slots' descriptors is filtering the slots by the test on their stored y. -/
theorem selectionIsTheFirstTenOnTheLine : Obligations.SelectionIsTheFirstTenOnTheLine := by
  intro c r m line
  refine ⟨?_, fun i => ⟨rfl, rfl, rfl, rfl, rfl⟩⟩
  rw [selectSprites_eq_take_filter, List.filter_map, ← List.map_take]
  simp only [Function.comp_def, onLine_readSlot]

/-! ## Order -/

/-- The drawing order of R144: the greater x first, and of equal x the lower slot. -/
def DrawnBefore (p q : Descriptor) : Prop := q.x < p.x ∨ (p.x = q.x ∧ p.slot < q.slot)

/-- A descriptor of a lower slot than all others takes its place in the drawing order. -/
theorem insertByX_pairwise {d : Descriptor} {l : List Descriptor} (hslot : ∀ e ∈ l, d.slot < e.slot)
    (hl : l.Pairwise DrawnBefore) : (insertByX d l).Pairwise DrawnBefore := by
  induction l with
  | nil => exact List.pairwise_singleton ..
  | cons e rest ih =>
    obtain ⟨hde, hdrest⟩ := List.forall_mem_cons.mp hslot
    obtain ⟨he, hrest⟩ := List.pairwise_cons.mp hl
    rw [insertByX]
    split
    · rename_i hx
      have hd : DrawnBefore d e := by unfold DrawnBefore; omega
      refine List.pairwise_cons.mpr ⟨List.forall_mem_cons.mpr ⟨hd, fun f hf => ?_⟩, hl⟩
      have hef := he f hf
      have hdf := hdrest f hf
      unfold DrawnBefore at *
      omega
    · rename_i hx
      refine List.pairwise_cons.mpr ⟨fun f hf => ?_, ih hdrest hrest⟩
      rcases List.mem_cons.mp ((insertByX_perm d rest).mem_iff.mp hf) with rfl | hf
      · exact .inl (by omega)
      · exact he f hf

/-- Slots that ascend come into the drawing order (R144). -/
theorem orderSprites_pairwise {l : List Descriptor} (hl : l.Pairwise fun p q => p.slot < q.slot) :
    (orderSprites l).Pairwise DrawnBefore := by
  induction l with
  | nil => exact .nil
  | cons d rest ih =>
    obtain ⟨hd, hrest⟩ := List.pairwise_cons.mp hl
    exact insertByX_pairwise (fun e he => hd e ((orderSprites_perm rest).mem_iff.mp he)) (ih hrest)

/-- Settles O36, by inserting each descriptor into the ordered rest, whose slots are all higher. -/
theorem ordererSortsStablyByDescendingX : Obligations.OrdererSortsStablyByDescendingX :=
  fun l hl => ⟨orderSprites_perm l, orderSprites_pairwise hl⟩

/-! ## One sprite at one pixel -/

section Pixel

variable {c : Cfg} {r : Regs} {m : Memory} {line px : Nat} {row : Row} {d : Descriptor}

/-- A sprite has no colour where it is skipped at the left edge or off the column (R171, R174). -/
theorem spriteColourAt_of_off (h : d.x < -7 ∨ (px : Int) < d.x ∨ d.x + 7 < px) : spriteColourAt c r m line d px = none :=
  if_pos (by tauto)

/-- The colour at one of a sprite's eight columns: none at colour index 0, else the index through palette and shade table (R174,
R175). -/
theorem spriteColourAt_of_column {col : Nat} {index : Shade} (hleft : -7 ≤ d.x) (hcol : col < 8) (hpx : d.x + col = px)
    (hindex : fetchIndex m (spriteRowAddr c r d line) (spriteBit d col) = index) :
    spriteColourAt c r m line d px = if index = 0 then none else some (shadeColour c (quadGet (spritePalette r d) index)) := by
  subst hindex
  have hcolumn : ((px : Int) - d.x).toNat = col := by omega
  have hon : ¬d.x < -7 ∧ ¬(px : Int) < d.x ∧ ¬d.x + 7 < (px : Int) := by omega
  simp only [spriteColourAt, hcolumn, hon, false_or]
  rfl

theorem spriteOver_of_none {cell : Option Colour} (h : spriteColourAt c r m line d px = none) :
    spriteOver c r m line px cell d = cell := by
  rw [spriteOver, h]

theorem spriteOver_of_some {cell : Option Colour} {colour : Colour} (h : spriteColourAt c r m line d px = some colour) :
    spriteOver c r m line px cell d = spriteCell line px (bgZeroColour c r) (bgPriority d) colour cell := by
  rw [spriteOver, h, spriteCell]
  show (if bgPriority d = true ∧ shownColour line px cell ≠ bgZeroColour c r then cell else some colour) = _
  cases bgPriority d <;> simp

/-- Drawing a column leaves every other column alone (R174). -/
theorem rowCell_drawColumn_ne {col : Nat} (h : d.x + col ≠ px) :
    rowCell (drawColumn c r m line d row col) px = rowCell row px := by
  unfold drawColumn
  split
  · rfl
  · split
    · rfl
    · split
      · rfl
      · exact rowCell_rowModify_ne _ (by omega)

/-- Drawing a column puts the sprite over what the column held (R174 to R177). -/
theorem rowCell_drawColumn_self {col : Nat} (hrow : row.length = 160) (hpx160 : px < 160) (hleft : -7 ≤ d.x) (hcol : col < 8)
    (hpx : d.x + col = px) :
    rowCell (drawColumn c r m line d row col) px = spriteOver c r m line px (rowCell row px) d := by
  obtain ⟨index, hindex⟩ : ∃ index, fetchIndex m (spriteRowAddr c r d line) (spriteBit d col) = index := ⟨_, rfl⟩
  have hcolour := spriteColourAt_of_column hleft hcol hpx hindex
  have hvisible : ¬(px : Int) ≥ (visibleWidth : Int) ∧ ¬(px : Int) < 0 := by
    unfold visibleWidth
    omega
  simp only [drawColumn, hpx, hvisible, hindex, if_false, Int.toNat_natCast]
  by_cases hzero : index = 0
  · rw [if_pos hzero] at hcolour ⊢
    rw [spriteOver_of_none hcolour]
  · rw [if_neg hzero] at hcolour ⊢
    rw [spriteOver_of_some hcolour, rowCell_rowModify_self _ (by omega)]

/-- After its first columns a sprite lies over a pixel that is one of them, and over no other pixel. -/
theorem rowCell_foldl_drawColumn {n : Nat} (hrow : row.length = 160) (hpx : px < 160) (hleft : -7 ≤ d.x) (hn : n ≤ 8) :
    rowCell ((List.range n).foldl (drawColumn c r m line d) row) px =
      if d.x ≤ px ∧ (px : Int) < d.x + n then spriteOver c r m line px (rowCell row px) d else rowCell row px := by
  induction n with
  | zero => rw [if_neg (by omega)]; rfl
  | succ n ih =>
    have ih := ih (by omega)
    rw [List.range_succ, List.foldl_append, List.foldl_cons, List.foldl_nil]
    by_cases hlast : d.x + n = px
    · rw [rowCell_drawColumn_self (by rw [foldl_length (drawColumn_length c r m line d), hrow]) hpx hleft hn hlast, ih,
        if_neg (by omega), if_pos (by omega)]
    · rw [rowCell_drawColumn_ne hlast, ih]
      congr 1
      rw [eq_iff_iff]
      omega

/-- Drawing a sprite puts it over what each pixel of the line held (R171 to R177). -/
theorem rowCell_drawSprite (hrow : row.length = 160) (hpx : px < 160) (d : Descriptor) :
    rowCell (drawSprite c r m line row d) px = spriteOver c r m line px (rowCell row px) d := by
  unfold drawSprite
  split
  · rename_i hleft
    rw [spriteOver_of_none (spriteColourAt_of_off (.inl hleft))]
  · rename_i hleft
    rw [rowCell_foldl_drawColumn hrow hpx (by omega) le_rfl]
    split
    · rfl
    · rw [spriteOver_of_none (spriteColourAt_of_off (.inr (by omega)))]

/-! ## All sprites at one pixel -/

theorem rowCell_foldl_drawSprite (hrow : row.length = 160) (hpx : px < 160) (l : List Descriptor) :
    rowCell (l.foldl (drawSprite c r m line) row) px = l.foldl (spriteOver c r m line px) (rowCell row px) := by
  induction l generalizing row with
  | nil => rfl
  | cons d rest ih => rw [List.foldl_cons, List.foldl_cons, ih (by rw [drawSprite_length, hrow]), rowCell_drawSprite hrow hpx]

/-- A pass that runs lays the ordered sprites over each pixel, one after the other (R170). -/
theorem rowCell_renderSprites (hrun : spritesRun c r) (hrow : row.length = 160) (hpx : px < 160) :
    rowCell (renderSprites c r m line row) px =
      (orderSprites (selectSprites c r m line)).foldl (spriteOver c r m line px) (rowCell row px) := by
  rw [renderSprites, if_neg (by simpa using hrun), rowCell_foldl_drawSprite hrow hpx]

/-- Sprites without a colour at a pixel leave it alone. -/
theorem foldl_spriteOver_of_none {l : List Descriptor} (h : ∀ e ∈ l, spriteColourAt c r m line e px = none)
    (cell : Option Colour) : l.foldl (spriteOver c r m line px) cell = cell := by
  induction l with
  | nil => rfl
  | cons e rest ih =>
    obtain ⟨he, hrest⟩ := List.forall_mem_cons.mp h
    rw [List.foldl_cons, spriteOver_of_none he, ih hrest]

end Pixel

/-- Settles O38: in the drawing order no sprite after the front one is opaque at the pixel, so that its colour is the last
one put there. -/
theorem frontSpriteShows : Obligations.FrontSpriteShows := by
  intro c r m line row px d colour hrow hpx hrun hd hpriority hcolour hfront
  obtain ⟨before, after, hsplit⟩ := List.append_of_mem ((orderSprites_perm _).mem_iff.mpr hd)
  have hordered := orderSprites_pairwise (selectSprites_pairwise_slot c r m line)
  rw [hsplit, List.pairwise_append, List.pairwise_cons] at hordered
  obtain ⟨-, ⟨hdrawn, -⟩, -⟩ := hordered
  have hafter : ∀ e ∈ after, spriteColourAt c r m line e px = none := by
    intro e he
    have hde : DrawnBefore d e := hdrawn e he
    unfold DrawnBefore at hde
    have hmem : e ∈ selectSprites c r m line := (orderSprites_perm _).mem_iff.mp (by simp [hsplit, he])
    have hne : e ≠ d := by rintro rfl; omega
    by_contra hopaque
    have := hfront e hmem hne (Option.isSome_iff_ne_none.mpr hopaque)
    omega
  rw [rowCell_renderSprites hrun hrow hpx, hsplit, List.foldl_append, List.foldl_cons, foldl_spriteOver_of_none hafter,
    spriteOver_of_some hcolour, spriteCell, if_neg (by simpa [bgPriority] using hpriority)]

end Sys2Proof.Machine
end

section
/-!
Proofs about the background and window pass (R150 to R158): which layer a pixel comes from, the colour index read there, and what
the pass leaves in every column, on a line that has a layer and on one that has none (R152).
-/

namespace Sys2Proof.Machine

section Pass

variable {c : Cfg} {r : Regs} {m : Memory} {line x : Nat} {row : Row}

/-! ## The layer of a pixel -/

theorem windowActive_iff : windowActive r line = true ↔ r.windowEnabled = true ∧ r.windowY.toNat ≤ line := by
  simp [windowActive]

/-- With a window or an enabled background every pixel of the line has a layer, and the window comes first (R151, R153). -/
theorem layerPoint_of_layer (h : (r.windowEnabled = true ∧ r.windowY.toNat ≤ line) ∨ r.bgEnabled = true) :
    layerPoint c r line x =
      some (if r.windowEnabled = true ∧ r.windowY.toNat ≤ line then windowPoint c r line x else backgroundPoint c r line x) := by
  unfold layerPoint
  simp only [windowActive_iff]
  split_ifs with hwindow hbackground
  · rfl
  · rfl
  · exact absurd (h.resolve_left hwindow) hbackground

/-- Without a window and with the background disabled no pixel of the line has a layer (R152). -/
theorem layerPoint_of_disabled (hno : ¬(r.windowEnabled = true ∧ r.windowY.toNat ≤ line)) (h : r.bgEnabled = false) :
    layerPoint c r line x = none := by
  rw [layerPoint, if_neg (mt windowActive_iff.mp hno), if_neg (ne_true_of_eq_false h)]

/-! ## The colour index at a place of a layer -/

/-- The tile's address with the two's complement index written out as a number (R71). -/
theorem tileAddr_eq (c : Cfg) (unsigned : Bool) (idx : Byte) :
    tileAddr c unsigned idx =
      if unsigned = true then (c.tileBaseUnsigned : Int) + idx.toNat * 16
      else (c.tileBaseSigned : Int) + (if idx.toNat < 128 then (idx.toNat : Int) else idx.toNat - 256) * 16 := by
  cases unsigned with
  | true => rfl
  | false =>
    have hidx : idx.toInt = if idx.toNat < 128 then (idx.toNat : Int) else idx.toNat - 256 := by
      rw [BitVec.toInt_eq_toNat_cond]
      split_ifs <;> omega
    rw [← hidx]
    rfl

/-- The index is read from the two bytes of the tile's row, at the bit of the column (R155, R156). -/
theorem layerIndex_of_tile {p : LayerPoint} {idx : Byte} {tile : Int} (hidx : memRead m (cellAddr p) = idx)
    (htile : tileAddr c r.bgTiledataSelect idx = tile) :
    layerIndex c r m p =
      colourIndex (memRead m (tile + 2 * (p.ty % 8 : Nat))) (memRead m (tile + 2 * (p.ty % 8 : Nat) + 1)) (7 - p.tx % 8) := by
  subst hidx htile
  rfl

/-! ## The pass over the columns -/

/-- The colour that the pass gives a pixel: its layer's, or background-zero's where it has no layer (R152, R157). -/
def backgroundColour (c : Cfg) (r : Regs) (m : Memory) (line x : Nat) : Colour :=
  (layerPoint c r line x).elim (bgZeroColour c r) (layerColour c r m)

/-- A pixel with no layer ends the pass when `BG_DISABLED_ABORT` is set (R152). -/
theorem backgroundFrom_cons_of_abort {rest : List Nat} (h : layerPoint c r line x = none) (habort : c.bgDisabledAbort = true) :
    backgroundFrom c r m line (x :: rest) row = rowWrite row x (bgZeroColour c r) := by
  simp only [backgroundFrom, h, habort, if_true]

/-- At any other pixel the pass stores the pixel's colour and goes on (R158). -/
theorem backgroundFrom_cons_of_continue {rest : List Nat} (h : layerPoint c r line x ≠ none ∨ c.bgDisabledAbort = false) :
    backgroundFrom c r m line (x :: rest) row =
      backgroundFrom c r m line rest (rowWrite row x (backgroundColour c r m line x)) := by
  cases hp : layerPoint c r line x with
  | some p => simp only [backgroundFrom, backgroundColour, hp, Option.elim_some]
  | none =>
    have habort : c.bgDisabledAbort = false := h.resolve_left (absurd hp)
    simp only [backgroundFrom, backgroundColour, hp, habort, Option.elim_none, Bool.false_eq_true, if_false]

/-- A pass that does not end early leaves in each of its columns the colour of that pixel. -/
theorem rowCell_backgroundFrom_mem {xs : List Nat} (hgo : ∀ y ∈ xs, layerPoint c r line y ≠ none ∨ c.bgDisabledAbort = false)
    (hx : x ∈ xs) (hrow : x < row.length) :
    rowCell (backgroundFrom c r m line xs row) x = some (backgroundColour c r m line x) := by
  induction xs generalizing row with
  | nil => exact absurd hx List.not_mem_nil
  | cons y rest ih =>
    obtain ⟨hy, hrest⟩ := List.forall_mem_cons.mp hgo
    rw [backgroundFrom_cons_of_continue hy]
    by_cases hlater : x ∈ rest
    · exact ih hrest hlater (by rwa [rowWrite_length])
    · obtain rfl : x = y := (List.mem_cons.mp hx).resolve_right hlater
      rw [rowCell_backgroundFrom_not_mem _ _ _ _ hlater, rowCell_rowWrite_self _ hrow]

/-- What a pass that does not end early leaves in each of the line's 160 columns. -/
theorem rowCell_renderBackground (hgo : ∀ y, layerPoint c r line y ≠ none ∨ c.bgDisabledAbort = false)
    (hrow : row.length = 160) (hx : x < 160) :
    rowCell (renderBackground c r m line row) x = some (backgroundColour c r m line x) :=
  rowCell_backgroundFrom_mem (fun y _ => hgo y) (List.mem_range.mpr hx) (by omega)

/-- A pass that ends early does so at column 0 (R152). -/
theorem renderBackground_of_abort (h : layerPoint c r line 0 = none) (habort : c.bgDisabledAbort = true) :
    renderBackground c r m line row = rowWrite row 0 (bgZeroColour c r) := by
  have hcolumns : List.range visibleWidth = 0 :: (List.range 159).map Nat.succ := List.range_succ_eq_map
  rw [renderBackground, hcolumns, backgroundFrom_cons_of_abort h habort]

end Pass

/-- Settles O32: every pixel of the line has a layer, the window's or the background's, so that the pass does not end early. -/
theorem backgroundAndWindowPixels : Obligations.BackgroundAndWindowPixels := by
  intro c r m line row x hrow hx hlayer window base tx ty idx tile byte1 byte2 ci
  have hgo (y : Nat) : layerPoint c r line y ≠ none ∨ c.bgDisabledAbort = false := by
    rw [layerPoint_of_layer hlayer]
    exact .inl (Option.some_ne_none _)
  have hpoint : layerPoint c r line x = some ⟨base, tx, ty⟩ := by
    rw [layerPoint_of_layer hlayer]
    by_cases hwindow : window
    · rw [if_pos hwindow, windowPoint, mapBase]
      simp only [base, tx, ty, if_pos hwindow]
    · rw [if_neg hwindow, backgroundPoint, mapBase]
      simp only [base, tx, ty, if_neg hwindow]
  have hidx : memRead m (cellAddr ⟨base, tx, ty⟩) = idx := rfl
  have htile : tileAddr c r.bgTiledataSelect idx = tile := tileAddr_eq ..
  have hindex : layerIndex c r m ⟨base, tx, ty⟩ = ci := layerIndex_of_tile hidx htile
  rw [rowCell_renderBackground hgo hrow hx, backgroundColour, hpoint, Option.elim_some, layerColour, hindex, shadeColour]

/-- Settles O33: no pixel of the line has a layer; the pass ends at column 0 or goes over all columns, by the parameter. -/
theorem backgroundDisabledLine : Obligations.BackgroundDisabledLine := by
  intro c r m line row x hrow hx hno hdisabled
  have hnone (y : Nat) : layerPoint c r line y = none := layerPoint_of_disabled hno hdisabled
  cases habort : c.bgDisabledAbort with
  | true =>
    rw [renderBackground_of_abort (hnone 0) habort]
    by_cases hx0 : x = 0
    · rw [if_pos (.inl hx0), hx0, rowCell_rowWrite_self _ (by omega)]
      rfl
    · rw [if_neg (by simp [hx0]), rowCell_rowWrite_ne _ hx0]
  | false =>
    rw [if_pos (.inr rfl), rowCell_renderBackground (fun _ => .inr habort) hrow hx, backgroundColour, hnone]
    rfl

end Sys2Proof.Machine
end

section
/-!
Proofs about the sprite pass (R170 to R177): what the ordered sprites together leave in each pixel, what a background-priority
sprite that alone is opaque leaves there, and the columns one sprite can change.
-/

namespace Sys2Proof.Machine

section Pass

variable {c : Cfg} {r : Regs} {m : Memory} {line px : Nat} {row : Row} {d : Descriptor}

/-- A column past a row's end holds nothing. -/
theorem rowCell_of_length_le (h : row.length ≤ px) : rowCell row px = none := by
  rw [rowCell, List.getElem?_eq_none h]
  rfl

/-- A pass that is gated off leaves the row as it is (R170). -/
theorem renderSprites_of_gated (hgated : c.spritesEnableGates = true ∧ r.spritesEnabled = false) :
    renderSprites c r m line row = row := by
  rw [renderSprites, if_pos (by simp [hgated])]

/-- Where one selected sprite alone has a colour, the pass is that sprite over what the pixel held. -/
theorem rowCell_renderSprites_of_alone (hrun : spritesRun c r) (hrow : row.length = 160) (hpx : px < 160)
    (hd : d ∈ selectSprites c r m line)
    (halone : ∀ e ∈ selectSprites c r m line, e ≠ d → spriteColourAt c r m line e px = none) :
    rowCell (renderSprites c r m line row) px = spriteOver c r m line px (rowCell row px) d := by
  have hperm := orderSprites_perm (selectSprites c r m line)
  obtain ⟨before, after, hsplit⟩ := List.append_of_mem (hperm.mem_iff.mpr hd)
  have hnodup : (before ++ d :: after).Nodup := by
    rw [← hsplit, hperm.nodup_iff]
    exact (selectSprites_pairwise_slot c r m line).imp fun hslot heq => hslot.ne (congrArg Descriptor.slot heq)
  have hothers : ∀ e ∈ before ++ after, spriteColourAt c r m line e px = none := by
    intro e he
    refine halone e (hperm.mem_iff.mp ?_) (ne_of_mem_of_not_mem he (List.nodup_middle.mp hnodup).notMem)
    rw [hsplit, List.perm_middle.mem_iff]
    exact List.mem_cons_of_mem d he
  obtain ⟨hbefore, hafter⟩ := List.forall_mem_append.mp hothers
  rw [rowCell_renderSprites hrun hrow hpx, hsplit, List.foldl_append, foldl_spriteOver_of_none hbefore, List.foldl_cons,
    foldl_spriteOver_of_none hafter]

/-- A sprite changes only pixels of the row at which it has a colour. -/
theorem spriteColourAt_of_drawSprite_ne (hrow : row.length = 160)
    (hchanged : rowCell (drawSprite c r m line row d) px ≠ rowCell row px) :
    px < 160 ∧ spriteColourAt c r m line d px ≠ none := by
  have hpx : px < 160 := by
    by_contra hout
    refine hchanged ?_
    rw [rowCell_of_length_le (by rw [drawSprite_length]; omega), rowCell_of_length_le (by omega)]
  refine ⟨hpx, fun hnone => hchanged ?_⟩
  rw [rowCell_drawSprite hrow hpx, spriteOver_of_none hnone]

/-- A sprite has a colour only at its eight columns, and none when it is fully off the left edge (R171, R174). -/
theorem column_of_spriteColourAt (h : spriteColourAt c r m line d px ≠ none) : -7 ≤ d.x ∧ d.x ≤ px ∧ (px : Int) ≤ d.x + 7 := by
  by_contra hoff
  exact h (spriteColourAt_of_off (by omega))

end Pass

/-- Settles O37: a gated pass keeps the row, and a pass that runs is the fold over the ordered sprites at each pixel. -/
theorem spritePassPixelByPixel : Obligations.SpritePassPixelByPixel := by
  intro c r m line row px hrow hpx
  split
  · rename_i hgated
    rw [renderSprites_of_gated hgated]
  · rename_i hrun
    exact rowCell_renderSprites hrun hrow hpx

/-- Settles O39: the pass is that sprite over the pixel, and its priority flag makes the pixel's shown colour decide. -/
theorem prioritySpriteShowsOverBackgroundZeroOnly : Obligations.PrioritySpriteShowsOverBackgroundZeroOnly := by
  intro c r m line row px d colour hrow hpx hrun hd hpriority hcolour halone
  have hflag : bgPriority d = true := hpriority
  have hcell : rowCell (renderSprites c r m line row) px =
      if shownColour line px (rowCell row px) = bgZeroColour c r then some colour else rowCell row px := by
    rw [rowCell_renderSprites_of_alone hrun hrow hpx hd halone, spriteOver_of_some hcolour, spriteCell, if_pos hflag]
  rw [hcell]
  exact ⟨fun hzero => if_pos hzero, fun hother => if_neg hother⟩

/-- Settles O40: a changed pixel is one at which the sprite has a colour, so one of its eight columns on the screen. -/
theorem spriteColumnsAreClipped : Obligations.SpriteColumnsAreClipped := by
  intro c r m line row d px hrow hchanged
  obtain ⟨hpx, hcolour⟩ := spriteColourAt_of_drawSprite_ne hrow hchanged
  obtain ⟨hleft, hfirst, hlast⟩ := column_of_spriteColourAt hcolour
  refine ⟨hpx, hfirst, hlast, hleft, fun hoffset hslot => ?_⟩
  have hx : d.x = ((memRead m (slotAddr c d.slot 1)).toNat : Int) - c.spriteXOffset := congrArg Descriptor.x hslot
  omega

end Sys2Proof.Machine
end

section
/-!
Proofs about the block's boundary: the environment's move on one memory byte (R208, R42), a mode entry that falls on a tick of the
coincidence line (R195, R115), and the history of what was put out, which nothing reads (R192).
-/

namespace Sys2Proof.Machine

/-! ## The environment's move -/

/-- Settles O3: the step's equations at a memory move and at nothing pending; what memory then reads is the law of `memWrite`. -/
theorem environmentMovesChangeOneByteOnly : Obligations.EnvironmentMovesChangeOneByteOnly := by
  refine ⟨fun s addr data rest hmem hp => ?_, fun s hp => step_of_nil hp⟩
  refine ⟨envWrite addr data (dropInput s), step_of_memory hp, ?_, ?_, ?_, fun a ha => ?_⟩
  · rw [dropInput_of_cons hp]
    rfl
  · exact memWrite_wf addr data hmem
  · exact memRead_memWrite_self addr data hmem
  · exact memRead_memWrite_ne data ha

/-! ## A mode entry hidden by the coincidence -/

/-- A tick adds one LCD-STAT request to the history if one of R115's conditions holds, else none. -/
theorem eventCount_lcdStat_tickAt (line : Nat) (mode : Mode) (s : State) :
    eventCount (.request .lcdStat) (tickAt line mode s).outputs =
      eventCount (.request .lcdStat) s.outputs + if StatDue s.reg line mode then 1 else 0 := by
  rw [eventCount_tickAt, count_lcdStat_tickEvents, Nat.add_comm]

/-- After a tick only the coincidence is left to a next tick in the same mode: every mode is kept as the previous one, whether
or not its entry was requested (R119, R195). -/
theorem statDue_tickAt_same_mode (line line' : Nat) (mode : Mode) (s : State) :
    StatDue (tickAt line mode s).reg line' mode ↔ s.reg.lyInt = true ∧ line' = s.reg.lineCompare.toNat := by
  have hsame := statDue_prevMode (tickAt line mode s).reg line'
  rw [prevMode_tickAt] at hsame
  rw [hsame, tickAt_reg, bookkeep_lyInt, latch_lyInt, bookkeep_lineCompare, latch_lineCompare]

/-- Settles O23: the first tick meets the coincidence condition, and the second meets none. -/
theorem entryHiddenByCoincidenceIsLost : Obligations.EntryHiddenByCoincidenceIsLost := by
  intro c₁ c₂ s hly hon hoff hmode
  refine ⟨_, _, exec_tick_false c₁ s, exec_tick_false c₂ _, ?_, ?_⟩
  · rw [eventCount_lcdStat_tickAt, if_pos (.inl ⟨hly, hon⟩)]
  · rw [eventCount_lcdStat_tickAt, hmode, if_neg, Nat.add_zero]
    rw [statDue_tickAt_same_mode]
    exact fun hcoincidence => hoff hcoincidence.2

/-! ## The history of outputs -/

/-- The state with another history of outputs. -/
def withOutputs (history : List Output) (s : State) : State := { s with outputs := history }

/-- A tick puts out the same on top of any history and otherwise does the same. -/
theorem tickAt_withOutputs (history : List Output) (line : Nat) (mode : Mode) (s : State) :
    tickAt line mode (withOutputs history s) =
      withOutputs (.tick .cont (tickEvents s.reg line mode) :: history) (tickAt line mode s) := by
  rw [tickAt_frame, tickAt_frame line mode s, tickAt_fb, tickAt_fb, tickAt_outputs]
  rfl

/-- What an operation puts out, and what it leaves otherwise, does not depend on the history. -/
theorem exec_withOutputs {i : Instr} {s t : State} (h : exec i s = .next t) :
    ∃ new, ∀ history, exec i (withOutputs history s) = .next (withOutputs (new ++ history) t) := by
  cases i with
  | tick cycles closeReq =>
    cases closeReq with
    | false =>
      cases h
      refine ⟨[.tick .cont (tickEvents s.reg (lineOf cycles) (modeOf cycles))], fun history => ?_⟩
      rw [exec_tick_false, tickAt_withOutputs, List.singleton_append]
    | true => cases h; exact ⟨[.tick .stop []], fun _ => rfl⟩
  | rdStat => cases h; exact ⟨[.read (statusByte s.reg)], fun _ => rfl⟩
  | rdLy => cases h; exact ⟨[.read s.reg.currentLine], fun _ => rfl⟩
  | rdLyc => cases h; exact ⟨[.read s.reg.lineCompare], fun _ => rfl⟩
  | _ => cases h; exact ⟨[], fun _ => rfl⟩

/-- A step puts out the same on top of every history and leaves otherwise equal states, or refuses at every history for the
same reason. -/
theorem step_withOutputs (s : State) :
    (∃ t new, ∀ history, step (withOutputs history s) = .next (withOutputs (new ++ history) t)) ∨
      ∃ r, ∀ history, step (withOutputs history s) = .refused r := by
  obtain ⟨hp, -⟩ | ⟨addr, data, rest, hp, -⟩ | ⟨op, rest, i, hp, hd, -⟩ | ⟨op, rest, write, addr, hp, hd, -⟩ := step_cases s
  · exact .inl ⟨s, [], fun history => step_of_nil (s := withOutputs history s) hp⟩
  · exact .inl ⟨envWrite addr data (dropInput s), [], fun history => step_of_memory (s := withOutputs history s) hp⟩
  · obtain ⟨t, ht⟩ := exec_answers_next i (dropInput s)
    obtain ⟨new, hexec⟩ := exec_withOutputs ht
    exact .inl ⟨t, new, fun history => (step_of_decode_ok (s := withOutputs history s) hp hd).trans (hexec history)⟩
  · exact .inr ⟨_, fun history => step_of_decode_error (s := withOutputs history s) hp hd⟩

/-- Two states that are equal but for their histories, which hold the same new outputs, each on top of its own old ones. -/
def SameButOldOutputs (old old' : List Output) (s t : State) : Prop :=
  t = { s with outputs := t.outputs } ∧ ∃ new, s.outputs = new ++ old ∧ t.outputs = new ++ old'

/-- Such states are one state with the two histories put in. -/
theorem sameButOldOutputs_iff {old old' : List Output} {s t : State} :
    SameButOldOutputs old old' s t ↔ ∃ u new, s = withOutputs (new ++ old) u ∧ t = withOutputs (new ++ old') u := by
  constructor
  · rintro ⟨ht, new, hs, hnew⟩
    exact ⟨s, new, by rw [← hs]; rfl, by rw [← hnew]; exact ht⟩
  · rintro ⟨u, new, rfl, rfl⟩
    exact ⟨rfl, new, rfl, rfl⟩

/-- One step of the relation: what the step puts out stands on top of both histories. -/
theorem step_sameButOldOutputs {old old' : List Output} {s t : State} (h : SameButOldOutputs old old' s t) :
    outcomesRelated (SameButOldOutputs old old') (step s) (step t) := by
  obtain ⟨u, new, rfl, rfl⟩ := sameButOldOutputs_iff.mp h
  obtain ⟨v, more, hstep⟩ | ⟨r, hstep⟩ := step_withOutputs u
  · rw [hstep, hstep, ← List.append_assoc, ← List.append_assoc]
    exact sameButOldOutputs_iff.mpr ⟨v, more ++ new, rfl, rfl⟩
  · rw [hstep, hstep]
    rfl

/-- Settles O42: the relation holds before the first step, with nothing new put out, and every step keeps it. -/
theorem outputsAreNeverRead : Obligations.OutputsAreNeverRead :=
  fun k _ _ => runSteps_related step_sameButOldOutputs k ⟨rfl, [], rfl, rfl⟩

end Sys2Proof.Machine
end

section
/-!
Proofs about reset and about tick runs at a bounded stride (R220, R221, R230, R231): what a run renders, presents and requests,
and what reset and the first tick after it leave.
-/

namespace Sys2Proof

open Machine

/-! ## Runs at a bounded stride -/

/-- Settles O28: by the induction over the ticks in `renderedLines_strided`. -/
theorem everyVisibleLineIsRenderedInOrder : Obligations.EveryVisibleLineIsRenderedInOrder := by
  intro cs c s hcs hline
  obtain ⟨t, ht⟩ := execTicks_answers_next cs s
  exact ⟨t, ht, (renderedLines_strided hcs hline).2⟩

/-- Settles O29: each of the two events is put out exactly at the step from line 143 to line 144. -/
theorem everyFrameBoundaryIsSeenOnce : Obligations.EveryFrameBoundaryIsSeenOnce := by
  intro cs c s hcs hline
  obtain ⟨t, ht⟩ := execTicks_answers_next cs s
  exact ⟨t, ht, eventCount_boundary_strided count_present_tickEvents hcs hline ht,
    eventCount_boundary_strided count_vblank_tickEvents hcs hline ht⟩

/-- Settles O30: no advance is longer than the mode whose enable is set, so that none of its entries is jumped over. -/
theorem everyModeEntryIsRequestedOnce : Obligations.EveryModeEntryIsRequestedOnce := by
  intro cs c s hmode hly hvblank
  obtain ⟨t, ht⟩ := execTicks_answers_next cs s
  refine ⟨fun hcs hhblank hoam => ⟨t, ht, ?_⟩, fun hcs hhblank hoam => ⟨t, ht, ?_⟩⟩
  · exact eventCount_modeEntry_strided (m := .hblank) (by decide) (fun _ _ => hblanksBegun_advance) hcs hmode
      ⟨hly, hhblank, hvblank, hoam⟩ ht
  · exact eventCount_modeEntry_strided (m := .oamSearch) (by decide) (fun _ _ => oamSearchesBegun_advance) hcs hmode
      ⟨hly, hhblank, hvblank, hoam⟩ ht

/-! ## Reset -/

/-- A blank row holds no written pixel, within its columns or past them. -/
@[simp] theorem rowCell_rowBlank (col : Nat) : rowCell rowBlank col = none := by
  rw [rowCell, rowBlank, List.getElem?_replicate]
  split <;> rfl

/-- No row of the framebuffer after reset is listed (R24). -/
@[simp] theorem fbRow_resetOf (c : Cfg) (row : Nat) : fbRow (State.resetOf c).fb row = rowBlank := rfl

/-- Settles O47: every pixel after reset is one of a blank row, which shows the free value. -/
theorem resetLeavesTheResetRecord : Obligations.ResetLeavesTheResetRecord := by
  refine ⟨fun c => ⟨rfl, rfl, rfl, fun row col => ?_⟩, rfl, by decide⟩
  rw [fbPixel, fbRow_resetOf, rowCell_rowBlank, shownColour, Option.getD_none]

/-! ## The first tick after reset -/

/-- With no interrupt enabled the evaluation requests nothing (R115). -/
theorem statEvents_of_no_enable {r : Regs} (hly : r.lyInt = false) (hhblank : r.hblankInt = false)
    (hvblank : r.vblankInt = false) (hoam : r.oamInt = false) (line : Nat) (mode : Mode) : statEvents r line mode = [] := by
  rw [statEvents_eq, if_neg]
  simp [hly, hhblank, hvblank, hoam]

/-- The first tick after the default reset requests nothing: no enable is set, and the line kept from before is 0 (R221). -/
theorem tickEvents_reset (line : Nat) (mode : Mode) : tickEvents State.reset.reg line mode = [] := by
  have hboundary : ¬(State.reset.reg.prevLine.toNat = 143 ∧ line = 144) := fun h => absurd h.1 (by decide)
  rw [tickEvents, statEvents_of_no_enable rfl rfl rfl rfl, frameEvents, if_neg hboundary, List.append_nil]

/-- A visible line is due at the first tick after the default reset unless it is line 0, the line kept from before (R231). -/
theorem renderDue_reset (line : Nat) : renderDue State.reset.reg line = true ↔ 0 < line ∧ line < 144 :=
  (renderDue_iff _ _).trans (and_congr_left' Nat.pos_iff_ne_zero.symm)

/-- With the default reset's registers no layer and no sprite is shown: the background pass ends at column 0 and the sprite pass
is gated off (R152, R170). -/
theorem renderRow_reset (m : Memory) (line : Nat) (row : Row) :
    renderRow cfgDefault regsZero m line row = rowWrite row 0 0xFFFFFF := by
  have hlayer : layerPoint cfgDefault regsZero line 0 = none := layerPoint_of_disabled (by simp [regsZero]) rfl
  rw [renderRow, renderSprites_of_gated ⟨rfl, rfl⟩, renderBackground_of_abort hlayer rfl]
  rfl

/-- Settles O48: the row rendered is the blank one, with column 0 written. -/
theorem firstTickAfterReset : Obligations.FirstTickAfterReset := by
  intro cycles
  refine ⟨_, exec_tick_false cycles State.reset, ?_, fun hline => ?_, fun hpos hvisible => ?_⟩
  · rw [tickAt_outputs, tickEvents_reset]
    rfl
  · have hdue : ¬renderDue State.reset.reg (lineOf cycles) = true := by
      rw [renderDue_reset, lineOf_eq, hline]
      decide
    rw [tickAt_fb, if_neg hdue]
    rfl
  · have hdue : renderDue State.reset.reg (lineOf cycles) = true := (renderDue_reset _).mpr ⟨hpos, hvisible⟩
    have hrow : fbRow (tickAt (lineOf cycles) (modeOf cycles) State.reset).fb (lineOf cycles) =
        rowWrite rowBlank 0 0xFFFFFF :=
      (fbRow_tickAt (reset_fb_wf cfgDefault) ..).trans ((if_pos ⟨hdue, rfl⟩).trans (renderRow_reset ..))
    rw [← lineOf_eq, hrow]
    have hcolumn : 0 < rowBlank.length := by rw [rowBlank_length]; decide
    refine ⟨rowCell_rowWrite_self _ hcolumn, fun x hx => ?_⟩
    rw [rowCell_rowWrite_ne _ (Nat.pos_iff_ne_zero.mp hx), rowCell_rowBlank]

end Sys2Proof
end
